-- ==== Sys2Proof/Word.lean ====
section
/-! DEFINITION. The word types of the block (spec 00_scope.md R5, R6): every word is a bit vector, bit 0 the least
significant bit. -/

namespace Sys2Proof

/-- An F16 word: 16 bits (R30). Every pattern is a value (R32). -/
abbrev F16 := BitVec 16

/-- A binary32 bit pattern: 32 bits (R38). -/
abbrev Bin32 := BitVec 32

/-- A binary64 bit pattern: 64 bits (R39). -/
abbrev Bin64 := BitVec 64

/-- The transaction result `dout[63:0]` (R43, R44). -/
abbrev Dout := BitVec 64

/-- The 68-bit transaction word `{op, din}` (R43): `op` in bits 67..64, `din` in bits 63..0. -/
abbrev TxnWord := BitVec 68

end Sys2Proof
end

