-- ==== Sys2Proof/Machine/Formats.lean ====
section
/-! DEFINITION. The three data formats (30_encoding.md R30, R38, R39, R40): where each field stands in its word, the fixed
parameters of R5, the named constants of R33 to R37, and the classes of wide patterns. -/

namespace Sys2Proof.Machine

/-! ## Fixed parameters (R5) -/

/-- Bias of the F16 exponent field (R5, R30). -/
def f16Bias : Int := 64

/-- Bias of the binary32 exponent field (R5, R38). -/
def bin32Bias : Int := 127

/-- Bias of the binary64 exponent field (R5, R39). -/
def bin64Bias : Int := 1023

/-! ## The named constants (R33 to R37) -/

/-- `ZERO` = 0x0000 (R33). -/
def f16Zero : F16 := 0x0000#16

/-- `MAX` = 0x7FFF (R34). -/
def f16Max : F16 := 0x7FFF#16

/-- `MIN` = 0xFFFF (R35). -/
def f16Min : F16 := 0xFFFF#16

/-- `MIN_POSITIVE` = 0x0001 (R36). -/
def f16MinPositive : F16 := 0x0001#16

/-- `MAX_NEGATIVE` = 0x8000 (R37): a nonzero number, not a negative zero (90_conflicts.md C3). -/
def f16MaxNegative : F16 := 0x8000#16

/-! ## Fields of an F16 word (R30) -/

/-- The sign `w[15]` of an F16 word (R30). -/
def sign16 (w : F16) : Bool := w.getLsbD 15

/-- The exponent field `w[14:8]` of an F16 word (R30). -/
def expField16 (w : F16) : BitVec 7 := w.extractLsb' 8 7

/-- The mantissa field `w[7:0]` of an F16 word (R30). -/
def manField16 (w : F16) : BitVec 8 := w.extractLsb' 0 8

/-! ## Fields of a binary32 pattern (R38) -/

/-- The sign `b[31]` of a binary32 pattern (R38). -/
def sign32 (b : Bin32) : Bool := b.getLsbD 31

/-- The exponent field `b[30:23]` of a binary32 pattern (R38). -/
def expField32 (b : Bin32) : BitVec 8 := b.extractLsb' 23 8

/-- The mantissa field `b[22:0]` of a binary32 pattern (R38). -/
def manField32 (b : Bin32) : BitVec 23 := b.extractLsb' 0 23

/-- The magnitude field `b[30:0]` of a binary32 pattern (R38). -/
def mag32 (b : Bin32) : BitVec 31 := b.extractLsb' 0 31

/-! ## Fields of a binary64 pattern (R39) -/

/-- The sign `b[63]` of a binary64 pattern (R39). -/
def sign64 (b : Bin64) : Bool := b.getLsbD 63

/-- The exponent field `b[62:52]` of a binary64 pattern (R39). -/
def expField64 (b : Bin64) : BitVec 11 := b.extractLsb' 52 11

/-- The mantissa field `b[51:0]` of a binary64 pattern (R39). -/
def manField64 (b : Bin64) : BitVec 52 := b.extractLsb' 0 52

/-- The magnitude field `b[62:0]` of a binary64 pattern (R39). -/
def mag64 (b : Bin64) : BitVec 63 := b.extractLsb' 0 63

/-! ## Classes of wide patterns (R40) -/

/-- The five classes of a wide pattern (R40). -/
inductive WideClass where
  | zero
  | subnormal
  | normal
  | infinity
  | nan
  deriving DecidableEq, Repr

/-- The class of a binary32 pattern, `Emax = 0xFF` (R40). -/
def class32 (b : Bin32) : WideClass :=
  if expField32 b = 0#8 then (if manField32 b = 0#23 then .zero else .subnormal)
  else if expField32 b = 0xFF#8 then (if manField32 b = 0#23 then .infinity else .nan)
  else .normal

/-- The class of a binary64 pattern, `Emax = 0x7FF` (R40). -/
def class64 (b : Bin64) : WideClass :=
  if expField64 b = 0#11 then (if manField64 b = 0#52 then .zero else .subnormal)
  else if expField64 b = 0x7FF#11 then (if manField64 b = 0#52 then .infinity else .nan)
  else .normal

end Sys2Proof.Machine
end

