-- ==== Sys2Proof/Machine/Operands.lean ====
section
/-! DEFINITION. Operand and result assembly of the transaction view (30_encoding.md R43, R44): the two fields of the
transaction word, the operand taken from the low bits of `din`, and the result zero-extended into `dout`. -/

namespace Sys2Proof.Machine

/-- The operation index `op`: bits 67..64 of the transaction word (R43). -/
def opField (t : TxnWord) : BitVec 4 := t.extractLsb' 64 4

/-- The operand field `din`: bits 63..0 of the transaction word (R43). -/
def dinField (t : TxnWord) : BitVec 64 := t.extractLsb' 0 64

/-- The transaction word `{op, din}` (R43). -/
def mkTxn (op : BitVec 4) (din : BitVec 64) : TxnWord := op ++ din

/-- A 16-bit operand: `din[15:0]`, the bits above ignored (R44). -/
def operand16 (din : BitVec 64) : F16 := din.extractLsb' 0 16

/-- A 32-bit operand: `din[31:0]`, the bits above ignored (R44). -/
def operand32 (din : BitVec 64) : Bin32 := din.extractLsb' 0 32

/-- A 64-bit operand: all of `din` (R44). -/
def operand64 (din : BitVec 64) : Bin64 := din

/-- A result of `n` bits in `dout`: `zext_64(result)` (R44). -/
def doutOf {n : Nat} (r : BitVec n) : Dout := r.setWidth 64

end Sys2Proof.Machine
end

