-- ==== Sys2Proof/Syntax.lean ====
section
/-! DEFINITION. The operations of the block: one constructor for each row of spec/opcode_table.json (30_encoding.md R43,
R47). An operand has exactly the width its row gives it, so there is no operand to range-check (R45: no 16-, 32- or 64-bit
pattern is an illegal operand). -/

namespace Sys2Proof

/-- One operation with its operand. The first ten are the format-`T` rows of R43, the last five the pseudo-operations of
R47. -/
inductive Instr where
  /-- `FROM_BITS w` (R50). -/
  | fromBits (w : F16)
  /-- `TO_BITS w` (R51). -/
  | toBits (w : F16)
  /-- `SIGN_BIT w` (R52). -/
  | signBit (w : F16)
  /-- `BIASED_EXPONENT w` (R53). -/
  | biasedExponent (w : F16)
  /-- `EXPONENT w` (R54). -/
  | exponent (w : F16)
  /-- `MANTISSA_BITS w` (R55). -/
  | mantissaBits (w : F16)
  /-- `DEC32 w` (R60). -/
  | dec32 (w : F16)
  /-- `DEC64 w` (R61). -/
  | dec64 (w : F16)
  /-- `ENC32 b` (R76). -/
  | enc32 (b : Bin32)
  /-- `ENC64 b` (R77). -/
  | enc64 (b : Bin64)
  /-- `CONST_ZERO` (R33, R47). -/
  | constZero
  /-- `CONST_MAX` (R34, R47). -/
  | constMax
  /-- `CONST_MIN` (R35, R47). -/
  | constMin
  /-- `CONST_MIN_POSITIVE` (R36, R47). -/
  | constMinPositive
  /-- `CONST_MAX_NEGATIVE` (R37, R47). -/
  | constMaxNegative
  deriving DecidableEq, Repr

end Sys2Proof
end

