-- ==== Sys2Proof/WellFormed.lean ====
section
/-! DEFINITION. What the decoder may be given and may answer (30_encoding.md R43, R45, R47). An operand cannot be
ill-formed (its type has its row's width), so two checks are left: a transaction word must carry an assigned operation
index, and a decoded operation is one of the ten format-`T` rows, never a pseudo-operation. -/

namespace Sys2Proof

/-- The operation index is one of the ten assigned values 0x0 to 0x9; 0xA to 0xF are reserved (R43, R45). -/
def assignedOp (op : BitVec 4) : Bool := op.toNat < 10

/-- A transaction word is well formed when its operation index is assigned; every `din` is acceptable (R45). -/
def txnWellFormed (t : TxnWord) : Bool := assignedOp (Machine.opField t)

/-- A format-`T` operation, one the decoder answers with ("a decoder matches the ten format-`T` rows only", R43).
A pseudo-operation is not: it is written as `FROM_BITS` of a literal (R47). -/
def Instr.wellFormed : Instr → Bool
  | .fromBits _ => true
  | .toBits _ => true
  | .signBit _ => true
  | .biasedExponent _ => true
  | .exponent _ => true
  | .mantissaBits _ => true
  | .dec32 _ => true
  | .dec64 _ => true
  | .enc32 _ => true
  | .enc64 _ => true
  | .constZero => false
  | .constMax => false
  | .constMin => false
  | .constMinPositive => false
  | .constMaxNegative => false

end Sys2Proof
end

