-- ==== Sys2Proof/Decode.lean ====
section
/-! DEFINITION. From a transaction word to an operation and back (30_encoding.md R43 to R45, R47). The decoder is total
and rejects a reserved operation index by name; the encoder writes an operation's transaction word with its ignored `din`
bits zero; the rows of spec/opcode_table.json are kept beside them as match and mask. -/

namespace Sys2Proof

open Machine

/-- Why the decoder gives no operation. -/
inductive DecodeError where
  /-- `op` is one of the reserved indices 0xA to 0xF, which "name no operation" (R45). -/
  | reservedOperation (op : BitVec 4)
  deriving DecidableEq, Repr

/-- The operation a transaction word carries: the ten format-`T` rows, selected by `op` alone (R43); reserved indices are
rejected (R45). -/
def decode (t : TxnWord) : Except DecodeError Instr :=
  match (opField t).toNat with
  | 0x0 => .ok (.fromBits (operand16 (dinField t)))
  | 0x1 => .ok (.toBits (operand16 (dinField t)))
  | 0x2 => .ok (.signBit (operand16 (dinField t)))
  | 0x3 => .ok (.biasedExponent (operand16 (dinField t)))
  | 0x4 => .ok (.exponent (operand16 (dinField t)))
  | 0x5 => .ok (.mantissaBits (operand16 (dinField t)))
  | 0x6 => .ok (.dec32 (operand16 (dinField t)))
  | 0x7 => .ok (.dec64 (operand16 (dinField t)))
  | 0x8 => .ok (.enc32 (operand32 (dinField t)))
  | 0x9 => .ok (.enc64 (operand64 (dinField t)))
  | _ => .error (.reservedOperation (opField t))

/-- The transaction word that a number spells when its bits are numbered as spec/opcode_table.json numbers them, bit 0 the
least significant. Bits from `nbits` up are none of its bits; a number with a bit above 67 is no transaction word (R43: 68
bits). -/
def txnOfTableWord (nbits w : Nat) : Option TxnWord :=
  if w % 2 ^ nbits < 2 ^ 68 then some (BitVec.ofNat 68 (w % 2 ^ nbits)) else none

/-- The operation the decoder reads from a word numbered as the opcode table numbers it; none where it refuses. -/
def decodeTableWord (nbits w : Nat) : Option Instr :=
  match txnOfTableWord nbits w with
  | none => none
  | some t => (decode t).toOption

/-- A pseudo-operation's expansion, `FROM_BITS` of its literal (R47); every other operation is itself. -/
def Instr.expand : Instr → Instr
  | .constZero => .fromBits f16Zero
  | .constMax => .fromBits f16Max
  | .constMin => .fromBits f16Min
  | .constMinPositive => .fromBits f16MinPositive
  | .constMaxNegative => .fromBits f16MaxNegative
  | .fromBits w => .fromBits w
  | .toBits w => .toBits w
  | .signBit w => .signBit w
  | .biasedExponent w => .biasedExponent w
  | .exponent w => .exponent w
  | .mantissaBits w => .mantissaBits w
  | .dec32 w => .dec32 w
  | .dec64 w => .dec64 w
  | .enc32 b => .enc32 b
  | .enc64 b => .enc64 b

/-- The transaction word of an operation (R43): its index, its operand in the low bits of `din`, the ignored bits zero; a
pseudo-operation has the word of its expansion (R47). -/
def encode : Instr → TxnWord
  | .fromBits w => mkTxn 0x0#4 (w.setWidth 64)
  | .toBits w => mkTxn 0x1#4 (w.setWidth 64)
  | .signBit w => mkTxn 0x2#4 (w.setWidth 64)
  | .biasedExponent w => mkTxn 0x3#4 (w.setWidth 64)
  | .exponent w => mkTxn 0x4#4 (w.setWidth 64)
  | .mantissaBits w => mkTxn 0x5#4 (w.setWidth 64)
  | .dec32 w => mkTxn 0x6#4 (w.setWidth 64)
  | .dec64 w => mkTxn 0x7#4 (w.setWidth 64)
  | .enc32 b => mkTxn 0x8#4 (b.setWidth 64)
  | .enc64 b => mkTxn 0x9#4 b
  | .constZero => mkTxn 0x0#4 (f16Zero.setWidth 64)
  | .constMax => mkTxn 0x0#4 (f16Max.setWidth 64)
  | .constMin => mkTxn 0x0#4 (f16Min.setWidth 64)
  | .constMinPositive => mkTxn 0x0#4 (f16MinPositive.setWidth 64)
  | .constMaxNegative => mkTxn 0x0#4 (f16MaxNegative.setWidth 64)

/-- The width of an operation's operand, the `N` of R44: the low `N` bits of `din` are the operand, those above are
ignored. -/
def Instr.operandWidth : Instr → Nat
  | .enc32 _ => 32
  | .enc64 _ => 64
  | .fromBits _ => 16
  | .toBits _ => 16
  | .signBit _ => 16
  | .biasedExponent _ => 16
  | .exponent _ => 16
  | .mantissaBits _ => 16
  | .dec32 _ => 16
  | .dec64 _ => 16
  | .constZero => 16
  | .constMax => 16
  | .constMin => 16
  | .constMinPositive => 16
  | .constMaxNegative => 16

/-- An operation's mnemonic (R43, R47), as spec/opcode_table.json spells it. -/
def Instr.mnemonic : Instr → String
  | .fromBits _ => "FROM_BITS"
  | .toBits _ => "TO_BITS"
  | .signBit _ => "SIGN_BIT"
  | .biasedExponent _ => "BIASED_EXPONENT"
  | .exponent _ => "EXPONENT"
  | .mantissaBits _ => "MANTISSA_BITS"
  | .dec32 _ => "DEC32"
  | .dec64 _ => "DEC64"
  | .enc32 _ => "ENC32"
  | .enc64 _ => "ENC64"
  | .constZero => "CONST_ZERO"
  | .constMax => "CONST_MAX"
  | .constMin => "CONST_MIN"
  | .constMinPositive => "CONST_MIN_POSITIVE"
  | .constMaxNegative => "CONST_MAX_NEGATIVE"

/-! ## The rows of spec/opcode_table.json -/

/-- A row of the operation table: its mnemonic and the 68-bit `match` and `mask` (R43). -/
structure OpRow where
  mnemonic : String
  matchBits : TxnWord
  mask : TxnWord
  deriving DecidableEq, Repr

/-- A row selects the words that agree with its `match` on the bits of its `mask` (R43). -/
def OpRow.selects (r : OpRow) (t : TxnWord) : Bool := t &&& r.mask == r.matchBits

/-- The ten format-`T` rows (R43). -/
def formatTRows : List OpRow :=
  [ ⟨"FROM_BITS", 0x00000000000000000#68, 0xF0000000000000000#68⟩,
    ⟨"TO_BITS", 0x10000000000000000#68, 0xF0000000000000000#68⟩,
    ⟨"SIGN_BIT", 0x20000000000000000#68, 0xF0000000000000000#68⟩,
    ⟨"BIASED_EXPONENT", 0x30000000000000000#68, 0xF0000000000000000#68⟩,
    ⟨"EXPONENT", 0x40000000000000000#68, 0xF0000000000000000#68⟩,
    ⟨"MANTISSA_BITS", 0x50000000000000000#68, 0xF0000000000000000#68⟩,
    ⟨"DEC32", 0x60000000000000000#68, 0xF0000000000000000#68⟩,
    ⟨"DEC64", 0x70000000000000000#68, 0xF0000000000000000#68⟩,
    ⟨"ENC32", 0x80000000000000000#68, 0xF0000000000000000#68⟩,
    ⟨"ENC64", 0x90000000000000000#68, 0xF0000000000000000#68⟩ ]

/-- The five `PSEUDO` rows, which "overlap the `FROM_BITS` row by construction" (R43, R47). -/
def pseudoRows : List OpRow :=
  [ ⟨"CONST_ZERO", 0x00000000000000000#68, 0xF000000000000FFFF#68⟩,
    ⟨"CONST_MAX", 0x00000000000007FFF#68, 0xF000000000000FFFF#68⟩,
    ⟨"CONST_MIN", 0x0000000000000FFFF#68, 0xF000000000000FFFF#68⟩,
    ⟨"CONST_MIN_POSITIVE", 0x00000000000000001#68, 0xF000000000000FFFF#68⟩,
    ⟨"CONST_MAX_NEGATIVE", 0x00000000000008000#68, 0xF000000000000FFFF#68⟩ ]

end Sys2Proof
end

