-- ==== Sys2Proof/Machine/State.lean ====
section
/-! DEFINITION. What a model of the block holds. The block itself has no state at all (10_state.md R10: "A model's state
type for this block is the unit type"): no register, flag, control register, memory or program counter (R11 to R18). What
stands here are its WIRES: the input ports of R15, each driven or not (R107), the transaction word the host presents (R43),
and the outcome of the transaction last evaluated. The output ports of R15 are functions of the input ports and are
computed, not stored (Sys2Proof/Machine/FieldExtractor.lean, Decoder.lean, Encoder.lean). -/

namespace Sys2Proof.Machine

/-- The outcome of a transaction: "either a result `dout[63:0]` or the failure" (R43, R90). A sum type, so that a word and
a failure can never stand together (R82, R87). -/
inductive TxnOutcome where
  /-- The operation returned; `dout` holds its result zero-extended (R44). -/
  | result (dout : Dout)
  /-- The operation raised `ConversionFailure` (R90): no word, no cause code (R92). -/
  | conversionFailure
  deriving DecidableEq, Repr

/-- The wires of one instance of the block. `none` on an input port or on `txn` is the spec's own "never been given a
value" (R107), not a register without a reset value. -/
structure State where
  /-- The transaction word `{op, din}` the host presents to the step (R43). -/
  txn : Option TxnWord
  /-- Input port `fx_w` of f16_field_extractor (R15). -/
  fxW : Option F16
  /-- Input port `dec_w` of fp16_decoder (R15). -/
  decW : Option F16
  /-- Input port `enc_f32` of fp16_encoder (R15). -/
  encF32 : Option Bin32
  /-- Input port `enc_f64` of fp16_encoder (R15). -/
  encF64 : Option Bin64
  /-- The outcome the host took of the transaction last evaluated (R43); none before the first. No operation reads it
  (R10, R13). -/
  taken : Option TxnOutcome
  deriving DecidableEq, Repr

/-- No step of this machine faults: "There is no behaviour in this block that the spec answers with `fault` or `stuck`:
every operation is total and completes" (93_implementation_defined.md section 1). The type has no constructor. -/
inductive Fault where
  deriving DecidableEq, Repr

/-- Why a step gives no meaning to what is presented. -/
inductive Refusal where
  /-- Raised by an arm of exec whose operation has no meaning yet; no arm of this model raises it. Safe: the step stops. -/
  | notModelled (mnemonic : String)
  /-- Raised by step when the presented word carries a reserved operation index 0xA to 0xF: "a model refuses a transaction
  that carries one" (R45, U6). Safe: the step stops. -/
  | reservedOperation (op : BitVec 4)
  /-- Raised by step when no transaction is presented: no input has been given a value, and "a model must not pick one"
  (R107, U7). Safe: the step stops. -/
  | noTransaction
  deriving DecidableEq, Repr

/-- Before the host does anything: no input driven, no transaction presented, no outcome (R19, R105, R107). The block has
nothing to reset (R105, R106). -/
def State.reset : State :=
  { txn := none, fxW := none, decW := none, encF32 := none, encF64 := none, taken := none }

end Sys2Proof.Machine
end

