-- ==== Sys2Proof/Machine/Ops.lean ====
section
/-! DEFINITION. The named operations over the wires: what the host does to an input port (10_state.md R15, R111), and the
two ways an operation ends (00_scope.md R9: `return v` and `raise ConversionFailure`). There is no memory, register or
program counter to operate on (R11, R12, R17, R20). -/

namespace Sys2Proof.Machine

/-! ## What the host drives -/

/-- The host presents a transaction word and holds it (R43, R111). -/
def State.present (t : TxnWord) (s : State) : State := { s with txn := some t }

/-- The host drives `fx_w`, the extractor's one input (R15). -/
def State.driveFx (w : F16) (s : State) : State := { s with fxW := some w }

/-- The host drives `dec_w`, the decoder's one input (R15). -/
def State.driveDec (w : F16) (s : State) : State := { s with decW := some w }

/-- The host drives `enc_f32`, the input of the encoder's 32-bit lane (R15). -/
def State.driveEnc32 (b : Bin32) (s : State) : State := { s with encF32 := some b }

/-- The host drives `enc_f64`, the input of the encoder's 64-bit lane (R15). -/
def State.driveEnc64 (b : Bin64) (s : State) : State := { s with encF64 := some b }

/-! ## How an operation ends -/

/-- `return v` (R9): the operation ends with the result `v`, zero-extended into `dout` (R44). -/
def State.returns {n : Nat} (v : BitVec n) (s : State) : State := { s with taken := some (.result (doutOf v)) }

/-- `raise ConversionFailure` (R9, R90, R93): the operation ends with the failure and no result. It "changes no state,
saves no state, switches no mode, masks nothing, and transfers control nowhere" (R93), so this is the whole of taking it,
and there is nothing to return from (R97). -/
def State.raiseConversionFailure (s : State) : State := { s with taken := some .conversionFailure }

/-- How a narrowing ends: with its F16 word, or with the failure; never both (R82, R87). -/
def State.endNarrowing (r : Option F16) (s : State) : State :=
  match r with
  | some w => s.returns w
  | none => s.raiseConversionFailure

end Sys2Proof.Machine
end

