-- ==== Sys2Proof/Machine/FieldExtractor.lean ====
section
/-! DEFINITION. f16_field_extractor (40_field_extractor.md): the six functions of an F16 word, the unit's output ports
(10_state.md R15), and the meaning of its six operations. All are total and none special-cases `ZERO` (R57). -/

namespace Sys2Proof.Machine

/-! ## The functions -/

/-- `FROM_BITS(w)`: the word unchanged (R50). -/
def fromBits (w : F16) : F16 := w

/-- `TO_BITS(w)`: the word unchanged (R51). -/
def toBits (w : F16) : F16 := w

/-- `SIGN_BIT(w)`: bit 15 in place, not reduced to 0 or 1 (R52). -/
def signBit (w : F16) : F16 := w &&& 0x8000#16

/-- `BIASED_EXPONENT(w)`: the exponent field as stored, 7 bits (R53). -/
def biasedExponent (w : F16) : BitVec 7 := ((w >>> 8) &&& 0x7F#16).setWidth 7

/-- `EXPONENT(w)`: the de-biased exponent, a mathematical integer (R54). -/
def exponent (w : F16) : Int := ((biasedExponent w).toNat : Int) - f16Bias

/-- The word of `EXPONENT(w)` on a port: 8-bit two's complement (R54). -/
def exponentWord (w : F16) : BitVec 8 := BitVec.ofInt 8 (exponent w)

/-- `MANTISSA_BITS(w)`: the stored mantissa in place, without the implicit 1 (R55). -/
def mantissaBits (w : F16) : F16 := w &&& 0x00FF#16

/-! ## The output ports: functions of `fx_w`, with no value while it is undriven (R15, R107) -/

/-- Output port `fx_bits` (R15, R51). -/
def State.fxBits (s : State) : Option F16 := s.fxW.map toBits

/-- Output port `fx_sign` (R15, R52). -/
def State.fxSign (s : State) : Option F16 := s.fxW.map signBit

/-- Output port `fx_bexp` (R15, R53). -/
def State.fxBexp (s : State) : Option (BitVec 7) := s.fxW.map biasedExponent

/-- Output port `fx_exp` (R15, R54). -/
def State.fxExp (s : State) : Option (BitVec 8) := s.fxW.map exponentWord

/-- Output port `fx_mant` (R15, R55). -/
def State.fxMant (s : State) : Option F16 := s.fxW.map mantissaBits

/-! ## The operations: the operand is presented on `fx_w` and the operation's own output is taken -/

/-- `FROM_BITS w` (R50). -/
def execFromBits (w : F16) (s : State) : Host.Outcome State Fault Refusal :=
  .next ((s.driveFx w).returns (fromBits w))

/-- `TO_BITS w` (R51). -/
def execToBits (w : F16) (s : State) : Host.Outcome State Fault Refusal :=
  .next ((s.driveFx w).returns (toBits w))

/-- `SIGN_BIT w` (R52). -/
def execSignBit (w : F16) (s : State) : Host.Outcome State Fault Refusal :=
  .next ((s.driveFx w).returns (signBit w))

/-- `BIASED_EXPONENT w` (R53). -/
def execBiasedExponent (w : F16) (s : State) : Host.Outcome State Fault Refusal :=
  .next ((s.driveFx w).returns (biasedExponent w))

/-- `EXPONENT w`: the 8-bit two's complement word, then zero-extended (R54, R44). -/
def execExponent (w : F16) (s : State) : Host.Outcome State Fault Refusal :=
  .next ((s.driveFx w).returns (exponentWord w))

/-- `MANTISSA_BITS w` (R55). -/
def execMantissaBits (w : F16) (s : State) : Host.Outcome State Fault Refusal :=
  .next ((s.driveFx w).returns (mantissaBits w))

end Sys2Proof.Machine
end

