-- ==== Sys2Proof/Machine/Constants.lean ====
section
/-! DEFINITION. The five pseudo-operations (30_encoding.md R33 to R37, R47): each is `FROM_BITS` of its literal. -/

namespace Sys2Proof.Machine

/-- `CONST_ZERO` = `FROM_BITS 0x0000` (R33, R47). -/
def execConstZero (s : State) : Host.Outcome State Fault Refusal :=
  .next ((s.driveFx f16Zero).returns (fromBits f16Zero))

/-- `CONST_MAX` = `FROM_BITS 0x7FFF` (R34, R47). -/
def execConstMax (s : State) : Host.Outcome State Fault Refusal :=
  .next ((s.driveFx f16Max).returns (fromBits f16Max))

/-- `CONST_MIN` = `FROM_BITS 0xFFFF` (R35, R47). -/
def execConstMin (s : State) : Host.Outcome State Fault Refusal :=
  .next ((s.driveFx f16Min).returns (fromBits f16Min))

/-- `CONST_MIN_POSITIVE` = `FROM_BITS 0x0001` (R36, R47). -/
def execConstMinPositive (s : State) : Host.Outcome State Fault Refusal :=
  .next ((s.driveFx f16MinPositive).returns (fromBits f16MinPositive))

/-- `CONST_MAX_NEGATIVE` = `FROM_BITS 0x8000` (R37, R47). -/
def execConstMaxNegative (s : State) : Host.Outcome State Fault Refusal :=
  .next ((s.driveFx f16MaxNegative).returns (fromBits f16MaxNegative))

end Sys2Proof.Machine
end

