-- ==== Sys2Proof/Machine/Decoder.lean ====
section
/-! DEFINITION. fp16_decoder (41_decoder.md): the exact widening of an F16 word to binary32 and binary64, the unit's output
ports (10_state.md R15), and the meaning of its two operations. Both are total (R62). -/

namespace Sys2Proof.Machine

/-! ## The functions -/

/-- `DEC32(w)` (R60): the wide zero for `ZERO` alone (R62 step 1); otherwise sign, re-biased exponent and mantissa moved
to their binary32 places. -/
def dec32 (w : F16) : Bin32 :=
  if w = f16Zero then 0x00000000#32
  else
    let sg : Bin32 := (signBit w).setWidth 32 <<< 16
    let ex : Bin32 := BitVec.ofInt 32 (exponent w + bin32Bias) <<< 23
    let mn : Bin32 := (mantissaBits w).setWidth 32 <<< 15
    sg ||| ex ||| mn

/-- `DEC64(w)` (R61): the same two steps with the binary64 places. -/
def dec64 (w : F16) : Bin64 :=
  if w = f16Zero then 0x0000000000000000#64
  else
    let sg : Bin64 := (signBit w).setWidth 64 <<< 48
    let ex : Bin64 := BitVec.ofInt 64 (exponent w + bin64Bias) <<< 52
    let mn : Bin64 := (mantissaBits w).setWidth 64 <<< 44
    sg ||| ex ||| mn

/-! ## The output ports: functions of `dec_w`, both valid at once (R15, R65) -/

/-- Output port `dec_f32` (R15, R60). -/
def State.decF32 (s : State) : Option Bin32 := s.decW.map dec32

/-- Output port `dec_f64` (R15, R61). -/
def State.decF64 (s : State) : Option Bin64 := s.decW.map dec64

/-! ## The operations: the operand is presented on `dec_w` and the operation's own output is taken -/

/-- `DEC32 w` (R60). -/
def execDec32 (w : F16) (s : State) : Host.Outcome State Fault Refusal :=
  .next ((s.driveDec w).returns (dec32 w))

/-- `DEC64 w` (R61). -/
def execDec64 (w : F16) (s : State) : Host.Outcome State Fault Refusal :=
  .next ((s.driveDec w).returns (dec64 w))

end Sys2Proof.Machine
end

