-- ==== Sys2Proof/Machine/Flags.lean ====
section
/-! DEFINITION. The block has no flags (10_state.md R13): no inexact, overflow, underflow or invalid flag is kept. Its only
status is whether a narrowing fails, recomputed from the operand alone; the tests that decide it, and the dead-zone test
that stands between them, are here (42_encoder.md R71 to R73, 60_exceptions.md R91, R92). -/

namespace Sys2Proof.Machine

/-! ## The 32-bit lane -/

/-- Step 1: infinity or NaN, `E == 0xFF` (R71). -/
def notFinite32 (b : Bin32) : Bool := expField32 b == 0xFF#8

/-- The first magnitude above the dead zone: the pattern of `MIN_POSITIVE` for sign 0, of `MAX_NEGATIVE` for sign 1
(R72). -/
def deadZoneBound32 (sg : Bool) : BitVec 31 := if sg then 0x1F800000#31 else 0x1F808000#31

/-- Step 2: the dead zone, strictly between `MAX_NEGATIVE` and `MIN_POSITIVE` as signed values (R72). -/
def deadZone32 (b : Bin32) : Bool := (mag32 b).ult (deadZoneBound32 (sign32 b))

/-- The largest magnitude in range, that of `MAX` and of `MIN` (R73). -/
def rangeBound32 : BitVec 31 := 0x5F7F8000#31

/-- Step 4: finite, and beyond `MAX` or `MIN` (R73, R91). -/
def outOfRange32 (b : Bin32) : Bool := !notFinite32 b && rangeBound32.ult (mag32 b)

/-- Step 3 is reached: finite, outside the dead zone, within `[MIN, MAX]` (R70, R73). -/
def inRange32 (b : Bin32) : Bool := !notFinite32 b && !deadZone32 b && !outOfRange32 b

/-! ## The 64-bit lane -/

/-- Step 1: infinity or NaN, `E == 0x7FF` (R71). -/
def notFinite64 (b : Bin64) : Bool := expField64 b == 0x7FF#11

/-- The first magnitude above the dead zone: the pattern of `MIN_POSITIVE` for sign 0, of `MAX_NEGATIVE` for sign 1
(R72). -/
def deadZoneBound64 (sg : Bool) : BitVec 63 := if sg then 0x3BF0000000000000#63 else 0x3BF0100000000000#63

/-- Step 2: the dead zone, strictly between `MAX_NEGATIVE` and `MIN_POSITIVE` as signed values (R72). -/
def deadZone64 (b : Bin64) : Bool := (mag64 b).ult (deadZoneBound64 (sign64 b))

/-- The largest magnitude in range, that of `MAX` and of `MIN` (R73). -/
def rangeBound64 : BitVec 63 := 0x43EFF00000000000#63

/-- Step 4: finite, and beyond `MAX` or `MIN` (R73, R91). -/
def outOfRange64 (b : Bin64) : Bool := !notFinite64 b && rangeBound64.ult (mag64 b)

/-- Step 3 is reached: finite, outside the dead zone, within `[MIN, MAX]` (R70, R73). -/
def inRange64 (b : Bin64) : Bool := !notFinite64 b && !deadZone64 b && !outOfRange64 b

end Sys2Proof.Machine
end

