-- ==== Sys2Proof/Machine/Encoder.lean ====
section
/-! DEFINITION. fp16_encoder (42_encoder.md): narrowing a binary32 or binary64 pattern to F16 by increment then truncate,
the unit's output ports (10_state.md R15), and the meaning of its two operations. Every pattern has exactly one outcome: a
word, or the conversion failure (R70, R87). -/

namespace Sys2Proof.Machine

/-! ## Step 3: round and compose (R74, R75) -/

/-- The rounding increment of the 32-bit lane: one at bit 14, just below the cut (R74). -/
def roundInc32 : Bin32 := 0x00004000#32

/-- The operand after the increment, in its own width: `r := b + 0x00004000` (R74, R76). -/
def incremented32 (b : Bin32) : Bin32 := b + roundInc32

/-- The word composed from `r`: `{ r[31], (E2 - 63)[6:0], r[22:15] }` (R75, R76). -/
def compose32 (r : Bin32) : F16 :=
  let e16 : BitVec 7 := BitVec.ofInt 7 (((expField32 r).toNat : Int) - 63)
  let m16 : BitVec 8 := r.extractLsb' 15 8
  r.extractLsb' 31 1 ++ e16 ++ m16

/-- The rounding increment of the 64-bit lane: one at bit 43, just below the cut (R74). -/
def roundInc64 : Bin64 := 0x0000080000000000#64

/-- The operand after the increment, in its own width: `r := b + 0x0000_0800_0000_0000` (R74, R77). -/
def incremented64 (b : Bin64) : Bin64 := b + roundInc64

/-- The word composed from `r`: `{ r[63], (E2 - 959)[6:0], r[51:44] }` (R75, R77). -/
def compose64 (r : Bin64) : F16 :=
  let e16 : BitVec 7 := BitVec.ofInt 7 (((expField64 r).toNat : Int) - 959)
  let m16 : BitVec 8 := r.extractLsb' 44 8
  r.extractLsb' 63 1 ++ e16 ++ m16

/-! ## The functions: a word, or none for `ConversionFailure` (R82) -/

/-- `ENC32(b)` (R76): the four steps in the source's order, each on the operand as given (R70). -/
def enc32 (b : Bin32) : Option F16 :=
  if notFinite32 b then none
  else if deadZone32 b then some 0x0000#16
  else if outOfRange32 b then none
  else some (compose32 (incremented32 b))

/-- `ENC64(b)` (R77): the four steps in the source's order, each on the operand as given (R70). -/
def enc64 (b : Bin64) : Option F16 :=
  if notFinite64 b then none
  else if deadZone64 b then some 0x0000#16
  else if outOfRange64 b then none
  else some (compose64 (incremented64 b))

/-! ## The output ports (R15, R82) -/

/-- Output port `enc32_err`: 1 when the 32-bit lane's narrowing fails (R15, R82). -/
def State.enc32Err (s : State) : Option Bool := s.encF32.map fun b => (enc32 b).isNone

/-- Output port `enc32_w`: the word, or the filler 0x0000 when `enc32_err` is 1, which "is not a result and must not be
used" (R82, U5). -/
def State.enc32W (s : State) : Option F16 := s.encF32.map fun b => (enc32 b).getD 0x0000#16

/-- Output port `enc64_err`: 1 when the 64-bit lane's narrowing fails (R15, R82). -/
def State.enc64Err (s : State) : Option Bool := s.encF64.map fun b => (enc64 b).isNone

/-- Output port `enc64_w`: the word, or the filler 0x0000 when `enc64_err` is 1 (R82, U5). -/
def State.enc64W (s : State) : Option F16 := s.encF64.map fun b => (enc64 b).getD 0x0000#16

/-! ## The operations: the operand is presented on the lane's own input and its outcome is taken -/

/-- `ENC32 b` (R76): a word, or the failure, on the 32-bit lane. -/
def execEnc32 (b : Bin32) (s : State) : Host.Outcome State Fault Refusal :=
  .next ((s.driveEnc32 b).endNarrowing (enc32 b))

/-- `ENC64 b` (R77): a word, or the failure, on the 64-bit lane. -/
def execEnc64 (b : Bin64) (s : State) : Host.Outcome State Fault Refusal :=
  .next ((s.driveEnc64 b).endNarrowing (enc64 b))

end Sys2Proof.Machine
end

