-- ==== Sys2Proof/Machine/Dispatch.lean ====
section
/-! DEFINITION. One arm per operation (30_encoding.md R43, R47). -/

namespace Sys2Proof.Machine

def exec (i : Instr) (s : State) : Host.Outcome State Fault Refusal :=
  match i with
  -- f16_field_extractor
  | .fromBits w => Sys2Proof.Machine.execFromBits w s
  | .toBits w => Sys2Proof.Machine.execToBits w s
  | .signBit w => Sys2Proof.Machine.execSignBit w s
  | .biasedExponent w => Sys2Proof.Machine.execBiasedExponent w s
  | .exponent w => Sys2Proof.Machine.execExponent w s
  | .mantissaBits w => Sys2Proof.Machine.execMantissaBits w s
  -- fp16_decoder
  | .dec32 w => Sys2Proof.Machine.execDec32 w s
  | .dec64 w => Sys2Proof.Machine.execDec64 w s
  -- fp16_encoder
  | .enc32 b => Sys2Proof.Machine.execEnc32 b s
  | .enc64 b => Sys2Proof.Machine.execEnc64 b s
  -- pseudo-operations
  | .constZero => Sys2Proof.Machine.execConstZero s
  | .constMax => Sys2Proof.Machine.execConstMax s
  | .constMin => Sys2Proof.Machine.execConstMin s
  | .constMinPositive => Sys2Proof.Machine.execConstMinPositive s
  | .constMaxNegative => Sys2Proof.Machine.execConstMaxNegative s

end Sys2Proof.Machine
end

