-- ==== Sys2Proof/Machine/Step.lean ====
section
/-! DEFINITION. One step: the transaction the host presents is decoded and evaluated, as one atomic evaluation
(30_encoding.md R43, 70_reset_and_hazards.md R110). The block fetches nothing and orders nothing (10_state.md R12): the
transaction stays presented, and the host presents the next one. -/

namespace Sys2Proof.Machine

/-- One transaction. With none presented there is nothing to evaluate and no value to pick (R107); a reserved index is
refused (R45). -/
def step (s : State) : Host.Outcome State Fault Refusal :=
  match s.txn with
  | none => .refused .noTransaction
  | some t =>
    match decode t with
    | .ok i => exec i s
    | .error (.reservedOperation op) => .refused (.reservedOperation op)

/-- The host presents the word that the opcode table's numbering spells (R43); a number wider than a transaction word
presents none. -/
def State.withFetchWord (s : State) (nbits w : Nat) : State := { s with txn := txnOfTableWord nbits w }

end Sys2Proof.Machine
end

