-- ==== Sys2Proof/Config.lean ====
section
/-! DEFINITION. What the spec leaves to whoever instantiates the block (00_scope.md R5, 92_eei_decisions.md D8): the one
OPEN parameter, `HOST_BYTE_ORDER`. Every other parameter of R5 is fixed by the spec and stands in
Sys2Proof/Machine/Formats.lean. -/

namespace Sys2Proof

/-- The two byte orders a host may use for a word it keeps in byte-addressed memory outside the block (R21).
DESIGN CHOICE (log entry 4): the spec only says "whatever byte order the host environment's integer representation
uses"; these are the two orders the name covers here. -/
inductive ByteOrder where
  | littleEndian
  | bigEndian
  deriving DecidableEq, Repr, Inhabited

/-- `HOST_BYTE_ORDER` (R5, R21, D8, U4): OPEN, owned by the host, read by no operation of the block. It has no body, so no
proof can learn which order it is. -/
opaque Config.hostByteOrder : ByteOrder

end Sys2Proof
end

