-- ==== Sys2Proof/Machine/HostBytes.lean ====
section
/-! DEFINITION. What a host owes a word it keeps in byte-addressed memory outside the block (20_memory.md R21, D8): under
either byte order, storing and loading again is the identity. No operation of the block reads this file. -/

namespace Sys2Proof.Machine

/-- The low `n` bytes of a number, least significant first. -/
def leBytes : Nat → Nat → List (BitVec 8)
  | 0, _ => []
  | n + 1, v => BitVec.ofNat 8 v :: leBytes n (v / 256)

/-- The number that bytes spell, least significant first. -/
def leValue : List (BitVec 8) → Nat
  | [] => 0
  | b :: bs => b.toNat + 256 * leValue bs

/-- The `n` bytes a host of the given order stores for a word, lowest address first (R21). -/
def hostStore (o : ByteOrder) (n : Nat) (v : BitVec (8 * n)) : List (BitVec 8) :=
  match o with
  | .littleEndian => leBytes n v.toNat
  | .bigEndian => (leBytes n v.toNat).reverse

/-- The word a host of the given order loads from bytes, lowest address first (R21). -/
def hostLoad (o : ByteOrder) (n : Nat) (bs : List (BitVec 8)) : BitVec (8 * n) :=
  match o with
  | .littleEndian => BitVec.ofNat (8 * n) (leValue bs)
  | .bigEndian => BitVec.ofNat (8 * n) (leValue bs.reverse)

end Sys2Proof.Machine
end

