-- ==== Sys2Proof/Machine/Values.lean ====
section
/-! DEFINITION. The real numbers that words denote (30_encoding.md R31, R41). No operation of the block computes a value;
the spec's rules about exactness, rounding and order are stated in these. Every value of the three formats is rational. -/

namespace Sys2Proof.Machine

/-- `(-1)^s` for a sign bit. -/
def signFactor (s : Bool) : ℚ := if s then -1 else 1

/-- `val16(w)` (R31): 0 for the word 0x0000 alone; every other word has the implicit leading 1 (90_conflicts.md C3). -/
def val16 (w : F16) : ℚ :=
  if w = f16Zero then 0
  else signFactor (sign16 w) * (2 : ℚ) ^ (((expField16 w).toNat : ℤ) - f16Bias) * (1 + ((manField16 w).toNat : ℚ) / 256)

/-- `valW` (R41) from the fields of a wide pattern that is finite: `MW` mantissa bits, exponent bias `bias`. -/
def valWide (mw : Nat) (bias : Int) (sg : Bool) (e f : Nat) : ℚ :=
  if e = 0 then signFactor sg * (2 : ℚ) ^ (1 - bias) * ((f : ℚ) / 2 ^ mw)
  else signFactor sg * (2 : ℚ) ^ ((e : ℤ) - bias) * (1 + (f : ℚ) / 2 ^ mw)

/-- `val32(b)` (R41); "a pattern that is not finite has no value". -/
def val32 (b : Bin32) : Option ℚ :=
  if notFinite32 b then none
  else some (valWide 23 bin32Bias (sign32 b) (expField32 b).toNat (manField32 b).toNat)

/-- `val64(b)` (R41); "a pattern that is not finite has no value". -/
def val64 (b : Bin64) : Option ℚ :=
  if notFinite64 b then none
  else some (valWide 52 bin64Bias (sign64 b) (expField64 b).toNat (manField64 b).toNat)

end Sys2Proof.Machine
end

