-- ==== Sys2Proof/Safety.lean ====
section
/-! DEFINITION. What claims about runs are stated in: when a step completes, the outcomes the output ports show, and the
outcomes a host takes of a sequence of operations. -/

namespace Sys2Proof.Machine

/-- A transaction with an assigned index is presented. -/
def State.ready (s : State) : Bool :=
  match s.txn with
  | none => false
  | some t => txnWellFormed t

/-- The step completes: it answers a next state, neither a fault nor a refusal. -/
def Completes (s : State) : Prop := ∃ t, step s = .next t

/-- The outcome one encoder lane shows on its two ports: the failure when `err` is 1, else the word (R82). -/
def laneOutcome (err : Option Bool) (w : Option F16) : Option TxnOutcome :=
  match err, w with
  | some true, some _ => some .conversionFailure
  | some false, some v => some (.result (doutOf v))
  | _, _ => none

/-- Every outcome that a driven output port of R15 shows, zero-extended as in the transaction view (R44). -/
def State.portOutcomes (s : State) : List TxnOutcome :=
  (s.fxBits.map fun v => .result (doutOf v)).toList ++
  (s.fxSign.map fun v => .result (doutOf v)).toList ++
  (s.fxBexp.map fun v => .result (doutOf v)).toList ++
  (s.fxExp.map fun v => .result (doutOf v)).toList ++
  (s.fxMant.map fun v => .result (doutOf v)).toList ++
  (s.decF32.map fun v => .result (doutOf v)).toList ++
  (s.decF64.map fun v => .result (doutOf v)).toList ++
  (laneOutcome s.enc32Err s.enc32W).toList ++
  (laneOutcome s.enc64Err s.enc64W).toList

/-- The outcome taken is one that an output port shows: the two views of R15 and R43 agree. -/
def State.OutcomeOnPorts (s : State) : Prop := ∀ o, s.taken = some o → o ∈ s.portOutcomes

/-- The outcomes a host takes of operations performed one after another. The list ends early where an operation does not
answer a next state. -/
def outcomesOf : List Instr → State → List (Option TxnOutcome)
  | [], _ => []
  | i :: is, s =>
    match exec i s with
    | .next t => t.taken :: outcomesOf is t
    | .fault _ => []
    | .refused _ => []

end Sys2Proof.Machine
end

