-- ==== Sys2Proof/Certificates/Slice0/Obligations.lean ====
section
/-! DEFINITION. The statements for the provers. Each docstring names the rule of the spec it formalises, or says that it
rests on a choice of the model and names the log entry. -/

open Sys2Proof Sys2Proof.Machine

/-! ## Transactions: decoding, encoding, stepping -/

/-- A step evaluates the operation that the presented transaction word decodes to, and adds nothing around it: the block
has no program counter to move (R12, R43). -/
def Obligations.StepRunsDecodedTransaction : Prop :=
  ∀ (s : State) (t : TxnWord) (i : Instr), s.txn = some t → decode t = .ok i → step s = exec i s

/-- R45: an assigned index completes whatever `din` holds (no data is illegal); a reserved index 0xA to 0xF is rejected by
name by the decoder and refused by the step, with no result and no failure outcome. -/
def Obligations.AssignedIndexCompletesReservedIsRefused : Prop :=
  ∀ (s : State) (t : TxnWord), s.txn = some t →
    ((t.extractLsb' 64 4).toNat ≤ 9 → ∃ u, step s = .next u) ∧
    (10 ≤ (t.extractLsb' 64 4).toNat →
      decode t = .error (.reservedOperation (t.extractLsb' 64 4)) ∧
      step s = .refused (.reservedOperation (t.extractLsb' 64 4)))

/-- Where no transaction is presented the step has no value to give and refuses (the model's choice, log entry 3; R107 asks
that no value be picked). -/
def Obligations.NoTransactionIsRefused : Prop :=
  ∀ s : State, s.txn = none → step s = .refused .noTransaction

/-- Decoding an encoded operation gives it back, for every operand of every operation; a pseudo-operation comes back as its
expansion (R43: a decoder matches the ten format-`T` rows only; R47), and a format-`T` operation is its own expansion. -/
def Obligations.DecodeOfEncodeIsExpansion : Prop :=
  (∀ i : Instr, decode (encode i) = .ok i.expand) ∧
  (∀ i : Instr, i.wellFormed = true → decode (encode i) = .ok i)

/-- Encoding what a word decodes to gives the word back, but for the `din` bits above the operand, which R44 ignores and the
encoder writes as zero; and what a decoder answers is never a pseudo-operation (R43). -/
def Obligations.EncodeOfDecodeRestoresWord : Prop :=
  ∀ (t : TxnWord) (i : Instr), decode t = .ok i →
    i.wellFormed = true ∧
    (encode i).extractLsb' 64 4 = t.extractLsb' 64 4 ∧
    ((encode i).extractLsb' 0 64).toNat = (t.extractLsb' 0 64).toNat % 2 ^ i.operandWidth

/-- R44: bits of `din` above the operand do not affect the outcome. Two words with the same index that agree on the low
`N` bits of `din`, `N` the operand width R43 gives the index, decode alike and step alike. -/
def Obligations.IgnoredDinBitsDoNotMatter : Prop :=
  ∀ (t t' : TxnWord) (n : Nat) (s : State),
    t.extractLsb' 64 4 = t'.extractLsb' 64 4 →
    n = (if (t.extractLsb' 64 4).toNat ≤ 7 then 16 else if (t.extractLsb' 64 4).toNat = 8 then 32 else 64) →
    (t.extractLsb' 0 64).toNat % 2 ^ n = (t'.extractLsb' 0 64).toNat % 2 ^ n →
    decode t = decode t' ∧
    ∀ u, step (s.present t) = .next u →
      ∃ u', step (s.present t') = .next u' ∧ u'.taken = u.taken

/-- The decoder agrees with the rows of the operation table (R43): a word decodes to an operation of a row's mnemonic
exactly when the row's `match` and `mask` select it, and no word is selected by two rows. -/
def Obligations.TableRowSelectsItsOperation : Prop :=
  (∀ (t : TxnWord) (r : OpRow), r ∈ formatTRows →
    (r.selects t = true ↔ ∃ i, decode t = .ok i ∧ i.mnemonic = r.mnemonic)) ∧
  (∀ (t : TxnWord) (r r' : OpRow), r ∈ formatTRows → r' ∈ formatTRows →
    r.selects t = true → r'.selects t = true → r = r') ∧
  (∀ (t : TxnWord) (r : OpRow), r ∈ pseudoRows → r.selects t = true →
    ∃ i : Instr, i.mnemonic = r.mnemonic ∧ decode t = .ok i.expand)

/-- Words written out from R43's format: each decodes to the operation it stands for (one word a unit, and an ignored-bit
case). -/
def Obligations.WrittenOutWordsDecode : Prop :=
  decode 0x0000000000000ABCD#68 = .ok (.fromBits 0xABCD#16) ∧
  decode 0x4000000000000C140#68 = .ok (.exponent 0xC140#16) ∧
  decode 0x6000000000000C140#68 = .ok (.dec32 0xC140#16) ∧
  decode 0x7FFFFFFFFFFFFC140#68 = .ok (.dec64 0xC140#16) ∧
  decode 0x80000000040490FDB#68 = .ok (.enc32 0x40490FDB#32) ∧
  decode 0x9400921FB54442D18#68 = .ok (.enc64 0x400921FB54442D18#64) ∧
  decode 0xA0000000000000000#68 = .error (.reservedOperation 0xA#4)

/-! ## f16_field_extractor -/

/-- R50, R51: `FROM_BITS` and `TO_BITS` return the operand's 16 bits unchanged, for every pattern, and are each other's
inverse; `TO_BITS` shows the word on `fx_bits`. -/
def Obligations.FromBitsAndToBitsReturnTheWord : Prop :=
  (∀ (w : F16) (s : State), ∃ t,
    exec (.fromBits w) s = .next t ∧ t.taken = some (.result (w.setWidth 64)) ∧ t.fxW = some w) ∧
  (∀ (w : F16) (s : State), ∃ t,
    exec (.toBits w) s = .next t ∧ t.taken = some (.result (w.setWidth 64)) ∧ t.fxW = some w ∧ t.fxBits = some w) ∧
  (∀ w : F16, fromBits w = w ∧ toBits w = w ∧ toBits (fromBits w) = w ∧ fromBits (toBits w) = w)

/-- R52: `SIGN_BIT` isolates bit 15 in place: 0x8000 or 0x0000, not 1 or 0. -/
def Obligations.SignBitStaysInPlace : Prop :=
  ∀ (w : F16) (s : State),
    signBit w = (if w.getLsbD 15 then 0x8000#16 else 0x0000#16) ∧
    (signBit w).getLsbD 15 = sign16 w ∧
    ∃ t, exec (.signBit w) s = .next t ∧
      t.taken = some (.result (if w.getLsbD 15 then 0x8000#64 else 0#64)) ∧
      t.fxW = some w ∧ t.fxSign = some (w &&& 0x8000#16)

/-- R53: `BIASED_EXPONENT` is the field `w[14:8]`, 7 bits, unsigned; the sign never leaks into it. -/
def Obligations.BiasedExponentIsTheStoredField : Prop :=
  ∀ (w : F16) (s : State),
    biasedExponent w = w.extractLsb' 8 7 ∧
    ∃ t, exec (.biasedExponent w) s = .next t ∧
      t.taken = some (.result (BitVec.ofNat 64 (w.toNat / 256 % 128))) ∧
      t.fxW = some w ∧ t.fxBexp = some (w.extractLsb' 8 7)

/-- R54: `EXPONENT` is `int(w[14:8]) - 64`, in -64..63, carried as the 8-bit two's complement word
`sext_8(be ^ 0x40)`; re-biased for a wide format it is always in 63..190 or 959..1086; `ZERO` is not special-cased. -/
def Obligations.ExponentIsTheFieldLessSixtyFour : Prop :=
  ∀ (w : F16) (s : State),
    exponent w = ((w.extractLsb' 8 7).toNat : Int) - 64 ∧
    (-64 ≤ exponent w ∧ exponent w ≤ 63) ∧
    (63 ≤ exponent w + 127 ∧ exponent w + 127 ≤ 190 ∧ 959 ≤ exponent w + 1023 ∧ exponent w + 1023 ≤ 1086) ∧
    (exponentWord w).toInt = exponent w ∧
    exponentWord w = (w.extractLsb' 8 7 ^^^ 0x40#7).signExtend 8 ∧
    ∃ t, exec (.exponent w) s = .next t ∧
      t.taken = some (.result (((w.extractLsb' 8 7 ^^^ 0x40#7).signExtend 8).setWidth 64)) ∧
      t.fxW = some w ∧ t.fxExp = some ((w.extractLsb' 8 7 ^^^ 0x40#7).signExtend 8)

/-- R55: `MANTISSA_BITS` is the low byte in place, the upper 8 bits zero. -/
def Obligations.MantissaBitsAreTheLowByte : Prop :=
  ∀ (w : F16) (s : State),
    mantissaBits w = (w.extractLsb' 0 8).setWidth 16 ∧
    ∃ t, exec (.mantissaBits w) s = .next t ∧
      t.taken = some (.result (BitVec.ofNat 64 (w.toNat % 256))) ∧
      t.fxW = some w ∧ t.fxMant = some (w &&& 0x00FF#16)

/-- R56: the three fields are disjoint, no bit of one field standing where a bit of another may, and cover all 16 bits; they
recompose every word, from the biased exponent and from the de-biased one, and words that agree in all three are equal. -/
def Obligations.FieldsRecomposeTheWord : Prop :=
  (∀ u v w : F16, signBit u &&& (biasedExponent v).setWidth 16 <<< 8 = 0#16 ∧ signBit u &&& mantissaBits w = 0#16 ∧
    (biasedExponent v).setWidth 16 <<< 8 &&& mantissaBits w = 0#16) ∧
  (0x8000#16 ||| 0x7F00#16 ||| 0x00FF#16 = 0xFFFF#16) ∧
  (∀ w : F16, w = signBit w ||| (biasedExponent w).setWidth 16 <<< 8 ||| mantissaBits w) ∧
  (∀ w : F16, w = signBit w ||| BitVec.ofInt 16 (exponent w + 64) <<< 8 ||| mantissaBits w) ∧
  (∀ w : F16, 0 ≤ exponent w + 64 ∧ exponent w + 64 ≤ 127) ∧
  (∀ v w : F16, signBit v = signBit w → biasedExponent v = biasedExponent w → mantissaBits v = mantissaBits w → v = w)

/-! ## Ports -/

/-- R15: each output port is the function of its unit's input port that its value rule gives, all of a unit's outputs at
once; while an input is not driven its outputs have no value (R107). -/
def Obligations.OutputPortsFollowInputPorts : Prop :=
  (∀ (s : State) (w : F16), s.fxW = some w →
    s.fxBits = some w ∧ s.fxSign = some (w &&& 0x8000#16) ∧ s.fxBexp = some (w.extractLsb' 8 7) ∧
    s.fxExp = some (BitVec.ofInt 8 (((w.extractLsb' 8 7).toNat : Int) - 64)) ∧ s.fxMant = some (w &&& 0x00FF#16)) ∧
  (∀ (s : State) (w : F16), s.decW = some w → s.decF32 = some (dec32 w) ∧ s.decF64 = some (dec64 w)) ∧
  (∀ (s : State) (b : Bin32), s.encF32 = some b →
    s.enc32Err = some (enc32 b == none) ∧ s.enc32W = some ((enc32 b).getD 0#16)) ∧
  (∀ (s : State) (b : Bin64), s.encF64 = some b →
    s.enc64Err = some (enc64 b == none) ∧ s.enc64W = some ((enc64 b).getD 0#16)) ∧
  (∀ s : State, s.fxW = none →
    s.fxBits = none ∧ s.fxSign = none ∧ s.fxBexp = none ∧ s.fxExp = none ∧ s.fxMant = none) ∧
  (∀ s : State, s.decW = none → s.decF32 = none ∧ s.decF64 = none) ∧
  (∀ s : State, s.encF32 = none → s.enc32Err = none ∧ s.enc32W = none) ∧
  (∀ s : State, s.encF64 = none → s.enc64Err = none ∧ s.enc64W = none)

/-! ## fp16_decoder -/

/-- R60 (and R62): `DEC32` in its closed form `{w[15], (w[14:8] + 63)[7:0], w[7:0], 15 zeros}`, the wide zero for 0x0000
alone. -/
def Obligations.Dec32WidensByClosedForm : Prop :=
  ∀ (w : F16) (s : State),
    dec32 w = (if w = 0x0000#16 then 0#32
      else w.extractLsb' 15 1 ++ ((w.extractLsb' 8 7).setWidth 8 + 63#8) ++ w.extractLsb' 0 8 ++ 0#15) ∧
    ∃ t, exec (.dec32 w) s = .next t ∧ t.taken = some (.result ((dec32 w).setWidth 64)) ∧
      t.decW = some w ∧ t.decF32 = some (dec32 w)

/-- R61 (and R62): `DEC64` in its closed form `{w[15], (w[14:8] + 959)[10:0], w[7:0], 44 zeros}`, the wide zero for 0x0000
alone. -/
def Obligations.Dec64WidensByClosedForm : Prop :=
  ∀ (w : F16) (s : State),
    dec64 w = (if w = 0x0000#16 then 0#64
      else w.extractLsb' 15 1 ++ ((w.extractLsb' 8 7).setWidth 11 + 959#11) ++ w.extractLsb' 0 8 ++ 0#44) ∧
    ∃ t, exec (.dec64 w) s = .next t ∧ t.taken = some (.result (dec64 w)) ∧
      t.decW = some w ∧ t.decF64 = some (dec64 w)

/-- R63: widening is exact in both lanes, for every word. -/
def Obligations.WideningIsExact : Prop :=
  ∀ w : F16, val32 (dec32 w) = some (val16 w) ∧ val64 (dec64 w) = some (val16 w)

/-- R64: widening is injective in both lanes, and its results are exactly the positive zero and the normal patterns with
exponent field in 63..190 (959..1086) and low mantissa bits zero, but `+2^-64`. -/
def Obligations.DecoderImageIsExactlyThesePatterns : Prop :=
  (∀ v w : F16, dec32 v = dec32 w → v = w) ∧
  (∀ v w : F16, dec64 v = dec64 w → v = w) ∧
  (∀ p : Bin32, (∃ w, dec32 w = p) ↔
    p = 0#32 ∨ (63 ≤ (p.extractLsb' 23 8).toNat ∧ (p.extractLsb' 23 8).toNat ≤ 190 ∧
      p.extractLsb' 0 15 = 0#15 ∧ p ≠ 0x1F800000#32)) ∧
  (∀ p : Bin64, (∃ w, dec64 w = p) ↔
    p = 0#64 ∨ (959 ≤ (p.extractLsb' 52 11).toNat ∧ (p.extractLsb' 52 11).toNat ≤ 1086 ∧
      p.extractLsb' 0 44 = 0#44 ∧ p ≠ 0x3BF0000000000000#64))

/-- R65: the binary64 result is the exact extension of the binary32 one: sign kept, 896 added to the exponent field, 29 zero
bits appended to the mantissa; both zero for `ZERO`. -/
def Obligations.Dec64ExtendsDec32 : Prop :=
  ∀ w : F16, dec64 w =
    if dec32 w = 0#32 then 0#64
    else (dec32 w).extractLsb' 31 1 ++ (((dec32 w).extractLsb' 23 8).setWidth 11 + 896#11) ++
      (dec32 w).extractLsb' 0 23 ++ 0#29

/-! ## fp16_encoder -/

/-- R71: an operand whose exponent field is all ones fails, whatever its sign and payload, in both lanes. -/
def Obligations.NotFiniteOperandFails : Prop :=
  (∀ (b : Bin32) (s : State), b.extractLsb' 23 8 = 0xFF#8 →
    ∃ t, exec (.enc32 b) s = .next t ∧ t.taken = some .conversionFailure ∧ t.enc32Err = some true) ∧
  (∀ (b : Bin64) (s : State), b.extractLsb' 52 11 = 0x7FF#11 →
    ∃ t, exec (.enc64 b) s = .next t ∧ t.taken = some .conversionFailure ∧ t.enc64Err = some true)

/-- R72: a finite operand is in the dead zone when its value lies strictly between `MAX_NEGATIVE` and `MIN_POSITIVE`; that
is the table's magnitude test for its sign, and it then narrows to 0x0000, with no failure. -/
def Obligations.DeadZoneNarrowsToZero : Prop :=
  (∀ (b : Bin32) (x : ℚ) (s : State), val32 b = some x →
    ((val16 0x8000#16 < x ∧ x < val16 0x0001#16) ↔
      b.toNat % 2 ^ 31 < (if b.getLsbD 31 then 0x1F800000 else 0x1F808000)) ∧
    (val16 0x8000#16 < x → x < val16 0x0001#16 →
      ∃ t, exec (.enc32 b) s = .next t ∧ t.taken = some (.result 0#64) ∧ t.enc32Err = some false)) ∧
  (∀ (b : Bin64) (x : ℚ) (s : State), val64 b = some x →
    ((val16 0x8000#16 < x ∧ x < val16 0x0001#16) ↔
      b.toNat % 2 ^ 63 < (if b.getLsbD 63 then 0x3BF0000000000000 else 0x3BF0100000000000)) ∧
    (val16 0x8000#16 < x → x < val16 0x0001#16 →
      ∃ t, exec (.enc64 b) s = .next t ∧ t.taken = some (.result 0#64) ∧ t.enc64Err = some false)) ∧
  val16 0x8000#16 = -(2 : ℚ) ^ (-64 : ℤ) ∧ val16 0x0001#16 = (2 : ℚ) ^ (-64 : ℤ) * 257 / 256

/-- R73: a finite operand is within `[MIN, MAX]` exactly when `|x| <= 511 * 2^55`, exactly when its magnitude field is at
most that of `MAX`, whatever its sign; a finite operand beyond it fails, tested before rounding. -/
def Obligations.OutOfRangeOperandFails : Prop :=
  (∀ (b : Bin32) (x : ℚ) (s : State), val32 b = some x →
    ((val16 0xFFFF#16 ≤ x ∧ x ≤ val16 0x7FFF#16) ↔ |x| ≤ 511 * 2 ^ 55) ∧
    (|x| ≤ 511 * 2 ^ 55 ↔ b.toNat % 2 ^ 31 ≤ 0x5F7F8000) ∧
    (511 * 2 ^ 55 < |x| →
      ∃ t, exec (.enc32 b) s = .next t ∧ t.taken = some .conversionFailure ∧ t.enc32Err = some true)) ∧
  (∀ (b : Bin64) (x : ℚ) (s : State), val64 b = some x →
    ((val16 0xFFFF#16 ≤ x ∧ x ≤ val16 0x7FFF#16) ↔ |x| ≤ 511 * 2 ^ 55) ∧
    (|x| ≤ 511 * 2 ^ 55 ↔ b.toNat % 2 ^ 63 ≤ 0x43EFF00000000000) ∧
    (511 * 2 ^ 55 < |x| →
      ∃ t, exec (.enc64 b) s = .next t ∧ t.taken = some .conversionFailure ∧ t.enc64Err = some true))

/-- R76: `ENC32`'s five cases, in the order of its tests, with every field and sum written in unbounded naturals:
`sg = b / 2^31`, `E = b / 2^23 % 2^8`, `mag = b % 2^31`, `r = b + 2^14`; the word is `{ r[31], E2 - 63, r[22:15] }`. -/
def Obligations.Enc32FollowsItsFiveCases : Prop :=
  ∀ (b : Bin32) (s : State),
    (b.toNat / 2 ^ 23 % 2 ^ 8 = 0xFF →
      ∃ t, exec (.enc32 b) s = .next t ∧ t.taken = some .conversionFailure ∧ t.enc32Err = some true) ∧
    (b.toNat / 2 ^ 31 = 0 → b.toNat % 2 ^ 31 < 0x1F808000 →
      ∃ t, exec (.enc32 b) s = .next t ∧ t.taken = some (.result 0#64) ∧ t.enc32Err = some false) ∧
    (b.toNat / 2 ^ 31 = 1 → b.toNat % 2 ^ 31 < 0x1F800000 →
      ∃ t, exec (.enc32 b) s = .next t ∧ t.taken = some (.result 0#64) ∧ t.enc32Err = some false) ∧
    (0x5F7F8000 < b.toNat % 2 ^ 31 →
      ∃ t, exec (.enc32 b) s = .next t ∧ t.taken = some .conversionFailure ∧ t.enc32Err = some true) ∧
    ((if b.toNat / 2 ^ 31 = 0 then 0x1F808000 else 0x1F800000) ≤ b.toNat % 2 ^ 31 → b.toNat % 2 ^ 31 ≤ 0x5F7F8000 →
      ∃ t, exec (.enc32 b) s = .next t ∧ t.enc32Err = some false ∧
        t.taken = some (.result (BitVec.ofNat 64
          ((b.toNat + 2 ^ 14) / 2 ^ 31 * 2 ^ 15 + ((b.toNat + 2 ^ 14) / 2 ^ 23 % 2 ^ 8 - 63) * 2 ^ 8 +
            (b.toNat + 2 ^ 14) / 2 ^ 15 % 2 ^ 8))))

/-- R77: `ENC64`'s five cases, in the order of its tests, with every field and sum written in unbounded naturals:
`sg = b / 2^63`, `E = b / 2^52 % 2^11`, `mag = b % 2^63`, `r = b + 2^43`; the word is `{ r[63], E2 - 959, r[51:44] }`. -/
def Obligations.Enc64FollowsItsFiveCases : Prop :=
  ∀ (b : Bin64) (s : State),
    (b.toNat / 2 ^ 52 % 2 ^ 11 = 0x7FF →
      ∃ t, exec (.enc64 b) s = .next t ∧ t.taken = some .conversionFailure ∧ t.enc64Err = some true) ∧
    (b.toNat / 2 ^ 63 = 0 → b.toNat % 2 ^ 63 < 0x3BF0100000000000 →
      ∃ t, exec (.enc64 b) s = .next t ∧ t.taken = some (.result 0#64) ∧ t.enc64Err = some false) ∧
    (b.toNat / 2 ^ 63 = 1 → b.toNat % 2 ^ 63 < 0x3BF0000000000000 →
      ∃ t, exec (.enc64 b) s = .next t ∧ t.taken = some (.result 0#64) ∧ t.enc64Err = some false) ∧
    (0x43EFF00000000000 < b.toNat % 2 ^ 63 →
      ∃ t, exec (.enc64 b) s = .next t ∧ t.taken = some .conversionFailure ∧ t.enc64Err = some true) ∧
    ((if b.toNat / 2 ^ 63 = 0 then 0x3BF0100000000000 else 0x3BF0000000000000) ≤ b.toNat % 2 ^ 63 →
      b.toNat % 2 ^ 63 ≤ 0x43EFF00000000000 →
      ∃ t, exec (.enc64 b) s = .next t ∧ t.enc64Err = some false ∧
        t.taken = some (.result (BitVec.ofNat 64
          ((b.toNat + 2 ^ 43) / 2 ^ 63 * 2 ^ 15 + ((b.toNat + 2 ^ 43) / 2 ^ 52 % 2 ^ 11 - 959) * 2 ^ 8 +
            (b.toNat + 2 ^ 43) / 2 ^ 44 % 2 ^ 8))))

/-- R78: where step 3 is reached the increment does not reach the sign bit, the sum is the unbounded one, the re-biased
exponent fits 7 bits, and the composed word does not exceed the magnitude of `MAX`. -/
def Obligations.IncrementStaysBelowTheSign : Prop :=
  (∀ b : Bin32, inRange32 b = true →
    (incremented32 b).toNat = b.toNat + 2 ^ 14 ∧
    b.toNat % 2 ^ 31 + 2 ^ 14 ≤ 0x5F7FC000 ∧
    sign32 (incremented32 b) = sign32 b ∧
    63 ≤ (expField32 (incremented32 b)).toNat ∧ (expField32 (incremented32 b)).toNat ≤ 190 ∧
    ((incremented32 b).extractLsb' 15 16).toNat ≤ 0xBEFF ∧
    val16 0xFFFF#16 ≤ val16 (compose32 (incremented32 b)) ∧ val16 (compose32 (incremented32 b)) ≤ val16 0x7FFF#16) ∧
  (∀ b : Bin64, inRange64 b = true →
    (incremented64 b).toNat = b.toNat + 2 ^ 43 ∧
    b.toNat % 2 ^ 63 + 2 ^ 43 ≤ 0x43EFF80000000000 ∧
    sign64 (incremented64 b) = sign64 b ∧
    959 ≤ (expField64 (incremented64 b)).toNat ∧ (expField64 (incremented64 b)).toNat ≤ 1086 ∧
    ((incremented64 b).extractLsb' 44 19).toNat ≤ 0x43EFF ∧
    val16 0xFFFF#16 ≤ val16 (compose64 (incremented64 b)) ∧ val16 (compose64 (incremented64 b)) ≤ val16 0x7FFF#16)

/-- What step 3 computes, in values (R79, first part): with `|x| = 2^k (1 + f)` and `q = floor(256 f + 1/2)`, the word has
the sign of `x` and fields `(k + 64, q)`, or `(k + 65, 0)` when `q = 256`, which cannot happen at `k = 63`. -/
def Obligations.RoundedWordFollowsMantissaFormula : Prop :=
  ∀ (x f : ℚ) (k : ℤ), |x| = (2 : ℚ) ^ k * (1 + f) → 0 ≤ f → f < 1 →
    ∀ o : Option F16,
      ((∃ b : Bin32, inRange32 b = true ∧ val32 b = some x ∧ enc32 b = o) ∨
       (∃ b : Bin64, inRange64 b = true ∧ val64 b = some x ∧ enc64 b = o)) →
    ∃ w, o = some w ∧ -64 ≤ k ∧ k ≤ 63 ∧ sign16 w = decide (x < 0) ∧
      0 ≤ ⌊256 * f + 1 / 2⌋ ∧ ⌊256 * f + 1 / 2⌋ ≤ 256 ∧
      (⌊256 * f + 1 / 2⌋ ≤ 255 →
        ((expField16 w).toNat : ℤ) = k + 64 ∧ ((manField16 w).toNat : ℤ) = ⌊256 * f + 1 / 2⌋) ∧
      (⌊256 * f + 1 / 2⌋ = 256 →
        k ≠ 63 ∧ ((expField16 w).toNat : ℤ) = k + 65 ∧ manField16 w = 0#8)

/-- Round to nearest, ties to the larger magnitude, for both signs and both lanes (R79): the word's value is at least as
near to the operand as any F16 value; at equal distance it is the one of larger magnitude; and the error is at most
`2^(k-9)` where `2^k <= |x| < 2^(k+1)`. -/
def Obligations.NarrowingRoundsToNearestTiesAway : Prop :=
  ∀ (x : ℚ) (o : Option F16),
    ((∃ b : Bin32, inRange32 b = true ∧ val32 b = some x ∧ enc32 b = o) ∨
     (∃ b : Bin64, inRange64 b = true ∧ val64 b = some x ∧ enc64 b = o)) →
    ∃ w, o = some w ∧
      (∀ v : F16, |val16 w - x| ≤ |val16 v - x|) ∧
      (∀ v : F16, v ≠ w → |val16 v - x| = |val16 w - x| → |val16 v| < |val16 w|) ∧
      (∀ k : ℤ, (2 : ℚ) ^ k ≤ |x| → |x| < (2 : ℚ) ^ (k + 1) → |val16 w - x| ≤ (2 : ℚ) ^ (k - 9))

/-- Where the order of the steps overrides rounding to nearest (R79, second part), in the 32-bit and the 64-bit lane: a
positive operand nearer to `MIN_POSITIVE` than to zero still gives `ZERO`; a negative one that rounding would carry to
`MAX_NEGATIVE` gives `ZERO`; one just above `MAX` that rounding would carry to `MAX` fails; and step 3 never gives `ZERO`. -/
def Obligations.StepOrderOverridesRounding : Prop :=
  (∀ (b : Bin32) (x : ℚ), val32 b = some x →
    ((2 : ℚ) ^ (-64 : ℤ) * 257 / 512 < x → x < (2 : ℚ) ^ (-64 : ℤ) * 257 / 256 →
      enc32 b = some 0x0000#16 ∧ |val16 0x0001#16 - x| < |val16 0x0000#16 - x|) ∧
    ((2 : ℚ) ^ (-64 : ℤ) * 1023 / 1024 ≤ -x → -x < (2 : ℚ) ^ (-64 : ℤ) →
      enc32 b = some 0x0000#16 ∧ compose32 (incremented32 b) = 0x8000#16) ∧
    (val16 0x7FFF#16 < |x| → |x| < 2 ^ 63 * 1023 / 512 →
      enc32 b = none ∧ compose32 (incremented32 b) = (if x < 0 then 0xFFFF#16 else 0x7FFF#16)) ∧
    (inRange32 b = true → enc32 b ≠ some 0x0000#16)) ∧
  (∀ (b : Bin64) (x : ℚ), val64 b = some x →
    ((2 : ℚ) ^ (-64 : ℤ) * 257 / 512 < x → x < (2 : ℚ) ^ (-64 : ℤ) * 257 / 256 →
      enc64 b = some 0x0000#16 ∧ |val16 0x0001#16 - x| < |val16 0x0000#16 - x|) ∧
    ((2 : ℚ) ^ (-64 : ℤ) * 1023 / 1024 ≤ -x → -x < (2 : ℚ) ^ (-64 : ℤ) →
      enc64 b = some 0x0000#16 ∧ compose64 (incremented64 b) = 0x8000#16) ∧
    (val16 0x7FFF#16 < |x| → |x| < 2 ^ 63 * 1023 / 512 →
      enc64 b = none ∧ compose64 (incremented64 b) = (if x < 0 then 0xFFFF#16 else 0x7FFF#16)) ∧
    (inRange64 b = true → enc64 b ≠ some 0x0000#16))

/-- R80: for every word, widening it and narrowing the pattern taken back succeeds and gives the identical word, in both
lanes; so each lane is onto. -/
def Obligations.WideningThenNarrowingIsTheIdentity : Prop :=
  (∀ (w : F16) (s : State), ∃ (p : Bin32) (t u : State),
    exec (.dec32 w) s = .next t ∧ t.taken = some (.result (p.setWidth 64)) ∧
    exec (.enc32 p) t = .next u ∧ u.taken = some (.result (w.setWidth 64)) ∧ enc32 (dec32 w) = some w) ∧
  (∀ (w : F16) (s : State), ∃ (p : Bin64) (t u : State),
    exec (.dec64 w) s = .next t ∧ t.taken = some (.result p) ∧
    exec (.enc64 p) t = .next u ∧ u.taken = some (.result (w.setWidth 64)) ∧ enc64 (dec64 w) = some w)

/-- R81: an operand whose value is exactly an F16 value narrows to that value's word, with no rounding error; both wide
zeros narrow to `ZERO`. -/
def Obligations.RepresentableValueNarrowsExactly : Prop :=
  (∀ (b : Bin32) (w : F16), val32 b = some (val16 w) → enc32 b = some w) ∧
  (∀ (b : Bin64) (w : F16), val64 b = some (val16 w) → enc64 b = some w) ∧
  enc32 0x80000000#32 = some 0x0000#16 ∧ enc64 0x8000000000000000#64 = some 0x0000#16

/-- R82: after a narrowing that succeeds the lane's `err` is 0 and its word output is the word; after one that fails `err`
is 1 and the word output carries the filler 0x0000, which is no result (U5): nothing may be proved of the conversion from
it. -/
def Obligations.EncoderPortsShowTheOutcome : Prop :=
  (∀ (b : Bin32) (s : State), ∃ t, exec (.enc32 b) s = .next t ∧
    (∀ w, enc32 b = some w →
      t.taken = some (.result (w.setWidth 64)) ∧ t.enc32Err = some false ∧ t.enc32W = some w) ∧
    (enc32 b = none →
      t.taken = some .conversionFailure ∧ t.enc32Err = some true ∧ t.enc32W = some 0x0000#16)) ∧
  (∀ (b : Bin64) (s : State), ∃ t, exec (.enc64 b) s = .next t ∧
    (∀ w, enc64 b = some w →
      t.taken = some (.result (w.setWidth 64)) ∧ t.enc64Err = some false ∧ t.enc64W = some w) ∧
    (enc64 b = none →
      t.taken = some .conversionFailure ∧ t.enc64Err = some true ∧ t.enc64W = some 0x0000#16))

/-- The rows of R83: by sign and magnitude, every pattern is dead zone, in range, finite out of range or not finite, at the
table's boundaries, with the row's outcome; both lanes. -/
def Obligations.OperandClassesHaveTheirMagnitudes : Prop :=
  (∀ b : Bin32,
    (deadZone32 b = true ↔ b.toNat % 2 ^ 31 ≤ (if b.getLsbD 31 then 0x1F7FFFFF else 0x1F807FFF)) ∧
    (inRange32 b = true ↔
      (if b.getLsbD 31 then 0x1F800000 else 0x1F808000) ≤ b.toNat % 2 ^ 31 ∧ b.toNat % 2 ^ 31 ≤ 0x5F7F8000) ∧
    (outOfRange32 b = true ↔ 0x5F7F8001 ≤ b.toNat % 2 ^ 31 ∧ b.toNat % 2 ^ 31 ≤ 0x7F7FFFFF) ∧
    (notFinite32 b = true ↔ 0x7F800000 ≤ b.toNat % 2 ^ 31) ∧
    (deadZone32 b = true → enc32 b = some 0x0000#16) ∧
    (inRange32 b = true → ∃ w, enc32 b = some w ∧ w ≠ 0x0000#16) ∧
    (outOfRange32 b = true → enc32 b = none) ∧ (notFinite32 b = true → enc32 b = none)) ∧
  (∀ b : Bin64,
    (deadZone64 b = true ↔
      b.toNat % 2 ^ 63 ≤ (if b.getLsbD 63 then 0x3BEFFFFFFFFFFFFF else 0x3BF00FFFFFFFFFFF)) ∧
    (inRange64 b = true ↔
      (if b.getLsbD 63 then 0x3BF0000000000000 else 0x3BF0100000000000) ≤ b.toNat % 2 ^ 63 ∧
      b.toNat % 2 ^ 63 ≤ 0x43EFF00000000000) ∧
    (outOfRange64 b = true ↔ 0x43EFF00000000001 ≤ b.toNat % 2 ^ 63 ∧ b.toNat % 2 ^ 63 ≤ 0x7FEFFFFFFFFFFFFF) ∧
    (notFinite64 b = true ↔ 0x7FF0000000000000 ≤ b.toNat % 2 ^ 63) ∧
    (deadZone64 b = true → enc64 b = some 0x0000#16) ∧
    (inRange64 b = true → ∃ w, enc64 b = some w ∧ w ≠ 0x0000#16) ∧
    (outOfRange64 b = true → enc64 b = none) ∧ (notFinite64 b = true → enc64 b = none))

/-- The pattern counts of R83's table for binary32: how many patterns of each sign are in each row. -/
def Obligations.OperandClassesHaveTheirCounts : Prop :=
  Nat.card { b : Bin32 // sign32 b = false ∧ deadZone32 b = true } = 528515072 ∧
  Nat.card { b : Bin32 // sign32 b = true ∧ deadZone32 b = true } = 528482304 ∧
  Nat.card { b : Bin32 // sign32 b = false ∧ inRange32 b = true } = 1073676289 ∧
  Nat.card { b : Bin32 // sign32 b = true ∧ inRange32 b = true } = 1073709057 ∧
  (∀ sg : Bool, Nat.card { b : Bin32 // sign32 b = sg ∧ outOfRange32 b = true } = 536903679) ∧
  (∀ sg : Bool, Nat.card { b : Bin32 // sign32 b = sg ∧ notFinite32 b = true } = 8388608) ∧
  (∀ sg : Bool, Nat.card { b : Bin32 // sign32 b = sg } = 2 ^ 31)

/-- R84: a binary32 and a binary64 pattern of the same value, or two that are not finite, have the same outcome in their
lanes. -/
def Obligations.LanesAgreeOnEqualValues : Prop :=
  ∀ (b : Bin32) (c : Bin64), val32 b = val64 c → enc32 b = enc64 c

/-- R85: on operands for which it succeeds each lane is monotone. -/
def Obligations.NarrowingIsMonotone : Prop :=
  (∀ (a b : Bin32) (x y : ℚ) (v w : F16), val32 a = some x → val32 b = some y → x ≤ y →
    enc32 a = some v → enc32 b = some w → val16 v ≤ val16 w) ∧
  (∀ (a b : Bin64) (x y : ℚ) (v w : F16), val64 a = some x → val64 b = some y → x ≤ y →
    enc64 a = some v → enc64 b = some w → val16 v ≤ val16 w)

/-! ## The conversion failure -/

/-- R90: only `ENC32` and `ENC64` can raise the one failure; every other operation completes with a result. -/
def Obligations.OnlyNarrowingFails : Prop :=
  (∀ (i : Instr) (s : State), (∀ b, i ≠ .enc32 b) → (∀ b, i ≠ .enc64 b) →
    ∃ t d, exec i s = .next t ∧ t.taken = some (.result d)) ∧
  (∀ (i : Instr) (s t : State), exec i s = .next t → t.taken = some .conversionFailure →
    (∃ b, i = .enc32 b) ∨ (∃ b, i = .enc64 b))

/-- R91: `ConversionFailure` is raised in exactly two conditions, not finite and out of range, which exclude each other; on
bits they are together the one comparison of the magnitude. -/
def Obligations.FailureHasExactlyTwoCauses : Prop :=
  (∀ (b : Bin32) (s : State), ∃ t, exec (.enc32 b) s = .next t ∧
    (t.taken = some .conversionFailure ↔ val32 b = none ∨ ∃ x, val32 b = some x ∧ 511 * 2 ^ 55 < |x|) ∧
    (t.taken = some .conversionFailure ↔ b.extractLsb' 23 8 = 0xFF#8 ∨
      (b.extractLsb' 23 8 ≠ 0xFF#8 ∧ 0x5F7F8000 < b.toNat % 2 ^ 31)) ∧
    (t.taken = some .conversionFailure ↔ 0x5F7F8000 < b.toNat % 2 ^ 31)) ∧
  (∀ (b : Bin64) (s : State), ∃ t, exec (.enc64 b) s = .next t ∧
    (t.taken = some .conversionFailure ↔ val64 b = none ∨ ∃ x, val64 b = some x ∧ 511 * 2 ^ 55 < |x|) ∧
    (t.taken = some .conversionFailure ↔ b.extractLsb' 52 11 = 0x7FF#11 ∨
      (b.extractLsb' 52 11 ≠ 0x7FF#11 ∧ 0x43EFF00000000000 < b.toNat % 2 ^ 63)) ∧
    (t.taken = some .conversionFailure ↔ 0x43EFF00000000000 < b.toNat % 2 ^ 63))

/-- After a failure the next operation is unaffected (R97): every operation has the outcome it has without it, and the same
operation again changes nothing (the presented transaction is held, log entry 5). That the transaction and the extractor's
and the decoder's inputs are as before the failing narrowing is the model's choice (log entries 2 and 5): a transaction
drives its own unit's input port alone. -/
def Obligations.FailureLeavesNextOperationUnaffected : Prop :=
  ∀ (i j : Instr) (s t : State), exec i s = .next t → t.taken = some .conversionFailure →
    t.txn = s.txn ∧ t.fxW = s.fxW ∧ t.decW = s.decW ∧
    ∃ u v, exec j t = .next u ∧ exec j s = .next v ∧ u.taken = v.taken ∧
      (∀ w, exec i t = .next w → w = t)

/-! ## The whole block -/

/-- From R26(a) and R10: there is one function from operations to outcomes such that a host that performs any operations one
after another, in any order, from any state of the wires, takes exactly their outcomes, each as if alone. So operations of
one instance commute. Operations at the same time and on different instances, of which R26 speaks too, are left out (log
entry 12, the model's choice). -/
def Obligations.OutcomesDependOnOperandsAlone : Prop :=
  ∃ f : Instr → TxnOutcome, ∀ (is : List Instr) (s : State), outcomesOf is s = is.map fun i => some (f i)

/-- Two instances that are presented the same transaction have the same outcome, whatever their wires held before (R10,
R18). -/
def Obligations.StepOutcomeDependsOnTransactionAlone : Prop :=
  ∀ s s' t : State, s.txn = s'.txn → step s = .next t → ∃ t', step s' = .next t' ∧ t'.taken = t.taken

/-- R23: repeating an operation "changes nothing and returns the same result": the state after a step, its transaction still
held, steps to itself. -/
def Obligations.RepeatedStepChangesNothing : Prop :=
  ∀ s t : State, step s = .next t → step t = .next t

/-- Frame of the extractor's operations and the pseudo-operations: the presented transaction, the decoder's and the
encoder's inputs, and all of their outputs are unchanged, and `fx_w` is driven (the model's choice, log entry 2). -/
def Obligations.ExtractorOperationsFrame : Prop :=
  ∀ (i : Instr) (s t : State), (∀ w, i ≠ .dec32 w) → (∀ w, i ≠ .dec64 w) → (∀ b, i ≠ .enc32 b) → (∀ b, i ≠ .enc64 b) →
    exec i s = .next t →
    t.fxW ≠ none ∧ t.txn = s.txn ∧ t.decW = s.decW ∧ t.encF32 = s.encF32 ∧ t.encF64 = s.encF64 ∧
    t.decF32 = s.decF32 ∧ t.decF64 = s.decF64 ∧ t.enc32Err = s.enc32Err ∧ t.enc32W = s.enc32W ∧
    t.enc64Err = s.enc64Err ∧ t.enc64W = s.enc64W

/-- Frame of `DEC32` and `DEC64`: the presented transaction, the extractor's and the encoder's inputs, and all of their
outputs are unchanged (the model's choice, log entry 2); the decoder's two outputs are both valid for the operand (R65). -/
def Obligations.DecoderOperationsFrame : Prop :=
  ∀ (w : F16) (s t : State), (exec (.dec32 w) s = .next t ∨ exec (.dec64 w) s = .next t) →
    t.txn = s.txn ∧ t.fxW = s.fxW ∧ t.encF32 = s.encF32 ∧ t.encF64 = s.encF64 ∧
    t.fxBits = s.fxBits ∧ t.fxSign = s.fxSign ∧ t.fxBexp = s.fxBexp ∧ t.fxExp = s.fxExp ∧ t.fxMant = s.fxMant ∧
    t.enc32Err = s.enc32Err ∧ t.enc32W = s.enc32W ∧ t.enc64Err = s.enc64Err ∧ t.enc64W = s.enc64W ∧
    t.decW = some w ∧ t.decF32 = some (dec32 w) ∧ t.decF64 = some (dec64 w)

/-- Frame of `ENC32` and `ENC64`: the other lane, the extractor, the decoder and the presented transaction are unchanged,
whether the narrowing succeeds or fails (the model's choice, log entry 2; R94: each lane reports its own failure on its own
`err`). -/
def Obligations.EncoderOperationsFrame : Prop :=
  (∀ (b : Bin32) (s t : State), exec (.enc32 b) s = .next t →
    t.txn = s.txn ∧ t.fxW = s.fxW ∧ t.decW = s.decW ∧ t.encF64 = s.encF64 ∧ t.encF32 = some b ∧
    t.enc64Err = s.enc64Err ∧ t.enc64W = s.enc64W) ∧
  (∀ (b : Bin64) (s t : State), exec (.enc64 b) s = .next t →
    t.txn = s.txn ∧ t.fxW = s.fxW ∧ t.decW = s.decW ∧ t.encF32 = s.encF32 ∧ t.encF64 = some b ∧
    t.enc32Err = s.enc32Err ∧ t.enc32W = s.enc32W)

/-- Before the host does anything no input is driven, so no output has a value, and no outcome has been taken (R19, R105,
R107; the shape of the state is the model's, log entry 1). -/
def Obligations.ResetDrivesNothing : Prop :=
  State.reset.txn = none ∧ State.reset.fxW = none ∧ State.reset.decW = none ∧ State.reset.encF32 = none ∧
  State.reset.encF64 = none ∧ State.reset.taken = none ∧ State.reset.portOutcomes = []

/-- No outcome is taken at reset, so none is off the ports; that `taken` is none at reset is the model's choice (log
entry 1). The base case of OutcomeOnPortsKeptByStep. -/
def Obligations.OutcomeOnPortsAtReset : Prop := State.reset.OutcomeOnPorts

/-- Every step keeps the two views together: the outcome taken of a transaction is one that a driven output port of R15
shows, a word zero-extended or a lane's failure; there is no other outcome (R87). -/
def Obligations.OutcomeOnPortsKeptByStep : Prop :=
  ∀ s t : State, s.OutcomeOnPorts → step s = .next t → t.OutcomeOnPorts

/-- A step completes exactly when a transaction with an assigned index is presented (R45, R107): every operation is total
and completes. -/
def Obligations.StepCompletesExactlyWhenReady : Prop :=
  ∀ s : State, Completes s ↔ s.ready = true

/-- While the host holds a transaction with an assigned index, any number of steps completes, and after the first the state
no longer changes (R23, R97: no retries, the same operand gives the same outcome). -/
def Obligations.HeldTransactionNeverStops : Prop :=
  ∀ (s : State), s.ready = true → ∃ t, ∀ n : Nat, Host.Core.run core (n + 1) s = .next t

/-! ## The formats and their values -/

/-- R31: the value of a nonzero word in its integer form `(-1)^s * (256 + m) * 2^(e - 72)`, the implicit 1 included for every
word but 0x0000; the value of 0x0000 is 0. -/
def Obligations.F16ValueHasItsIntegerForm : Prop :=
  val16 0x0000#16 = 0 ∧
  ∀ w : F16, w ≠ 0x0000#16 →
    val16 w = (-1) ^ (w.toNat / 32768) * (256 + (w.toNat % 256 : ℕ)) * (2 : ℚ) ^ (((w.toNat / 256 % 128 : ℕ) : ℤ) - 72)

/-- R32: the 65,536 words denote different numbers; there is one zero; `+2^-64` is not representable, and the positive
values start at word 0x0001, the negative ones at word 0x8000. -/
def Obligations.F16ValuesAreDistinct : Prop :=
  (∀ v w : F16, val16 v = val16 w → v = w) ∧
  (∀ w : F16, val16 w = 0 ↔ w = 0x0000#16) ∧
  (∀ w : F16, val16 w ≠ (2 : ℚ) ^ (-64 : ℤ)) ∧
  (∀ w : F16, 0 < val16 w → val16 0x0001#16 ≤ val16 w) ∧
  (∀ w : F16, val16 w < 0 → val16 w ≤ val16 0x8000#16) ∧
  val16 0x0001#16 = (2 : ℚ) ^ (-64 : ℤ) * 257 / 256 ∧ val16 0x8000#16 = -(2 : ℚ) ^ (-64 : ℤ)

/-- R49: words of sign 0 are ordered by value as their integers, words of sign 1 the other way; every word of sign 1 is
negative and below every word of sign 0; 0x0000 denotes 0 and every other word of sign 0 a positive number. -/
def Obligations.F16WordsAreOrderedByValue : Prop :=
  (∀ a b : F16, a.getLsbD 15 = false → b.getLsbD 15 = false → (val16 a < val16 b ↔ a.toNat < b.toNat)) ∧
  (∀ a b : F16, a.getLsbD 15 = true → b.getLsbD 15 = true → (val16 a < val16 b ↔ b.toNat < a.toNat)) ∧
  (∀ a b : F16, a.getLsbD 15 = true → b.getLsbD 15 = false → val16 a < 0 ∧ val16 a < val16 b) ∧
  val16 0x0000#16 = 0 ∧
  (∀ b : F16, b.getLsbD 15 = false → b ≠ 0x0000#16 → 0 < val16 b)

/-- R42: finite wide patterns of one format and sign are ordered by their magnitude fields, and the magnitude of the value
is a strictly increasing function of the magnitude field. -/
def Obligations.WidePatternsAreOrderedByMagnitude : Prop :=
  (∀ (a b : Bin32) (x y : ℚ), val32 a = some x → val32 b = some y →
    (a.getLsbD 31 = false → b.getLsbD 31 = false → (x < y ↔ a.toNat % 2 ^ 31 < b.toNat % 2 ^ 31)) ∧
    (a.getLsbD 31 = true → b.getLsbD 31 = true → (x < y ↔ b.toNat % 2 ^ 31 < a.toNat % 2 ^ 31)) ∧
    (|x| < |y| ↔ a.toNat % 2 ^ 31 < b.toNat % 2 ^ 31)) ∧
  (∀ (a b : Bin64) (x y : ℚ), val64 a = some x → val64 b = some y →
    (a.getLsbD 63 = false → b.getLsbD 63 = false → (x < y ↔ a.toNat % 2 ^ 63 < b.toNat % 2 ^ 63)) ∧
    (a.getLsbD 63 = true → b.getLsbD 63 = true → (x < y ↔ b.toNat % 2 ^ 63 < a.toNat % 2 ^ 63)) ∧
    (|x| < |y| ↔ a.toNat % 2 ^ 63 < b.toNat % 2 ^ 63))

/-- R40: a wide pattern has a value exactly when its class is zero, subnormal or normal; the classes have the conditions of
R40's table. -/
def Obligations.WideClassesFollowTheirFields : Prop :=
  (∀ b : Bin32,
    (class32 b = .zero ↔ b.toNat % 2 ^ 31 = 0) ∧
    (class32 b = .subnormal ↔ 0 < b.toNat % 2 ^ 31 ∧ b.toNat % 2 ^ 31 < 2 ^ 23) ∧
    (class32 b = .normal ↔ 2 ^ 23 ≤ b.toNat % 2 ^ 31 ∧ b.toNat % 2 ^ 31 < 0x7F800000) ∧
    (class32 b = .infinity ↔ b.toNat % 2 ^ 31 = 0x7F800000) ∧
    (class32 b = .nan ↔ 0x7F800000 < b.toNat % 2 ^ 31) ∧
    (val32 b = none ↔ class32 b = .infinity ∨ class32 b = .nan)) ∧
  (∀ b : Bin64,
    (class64 b = .zero ↔ b.toNat % 2 ^ 63 = 0) ∧
    (class64 b = .subnormal ↔ 0 < b.toNat % 2 ^ 63 ∧ b.toNat % 2 ^ 63 < 2 ^ 52) ∧
    (class64 b = .normal ↔ 2 ^ 52 ≤ b.toNat % 2 ^ 63 ∧ b.toNat % 2 ^ 63 < 0x7FF0000000000000) ∧
    (class64 b = .infinity ↔ b.toNat % 2 ^ 63 = 0x7FF0000000000000) ∧
    (class64 b = .nan ↔ 0x7FF0000000000000 < b.toNat % 2 ^ 63) ∧
    (val64 b = none ↔ class64 b = .infinity ∨ class64 b = .nan))

/-- R33 to R37: the five constants have their words, their values and their wide patterns; `MAX` and `MIN` are the largest
and the most negative value, `MIN_POSITIVE` the smallest positive and `MAX_NEGATIVE` the negative one nearest to zero, and
the two bounds of the dead zone are not opposite numbers. -/
def Obligations.NamedConstantsHaveTheirValues : Prop :=
  (f16Zero = 0x0000#16 ∧ val16 f16Zero = 0 ∧ dec32 f16Zero = 0x00000000#32 ∧ dec64 f16Zero = 0x0000000000000000#64 ∧
    f16MaxNegative ≠ f16Zero) ∧
  (f16Max = 0x7FFF#16 ∧ val16 f16Max = 18410715276690587648 ∧ val16 f16Max = 511 * 2 ^ 55 ∧
    dec32 f16Max = 0x5F7F8000#32 ∧ dec64 f16Max = 0x43EFF00000000000#64) ∧
  (f16Min = 0xFFFF#16 ∧ val16 f16Min = -val16 f16Max ∧
    dec32 f16Min = 0xDF7F8000#32 ∧ dec64 f16Min = 0xC3EFF00000000000#64) ∧
  (f16MinPositive = 0x0001#16 ∧ val16 f16MinPositive = 257 * (2 : ℚ) ^ (-72 : ℤ) ∧
    dec32 f16MinPositive = 0x1F808000#32 ∧ dec64 f16MinPositive = 0x3BF0100000000000#64) ∧
  (f16MaxNegative = 0x8000#16 ∧ val16 f16MaxNegative = -(2 : ℚ) ^ (-64 : ℤ) ∧
    dec32 f16MaxNegative = 0x9F800000#32 ∧ dec64 f16MaxNegative = 0xBBF0000000000000#64) ∧
  (∀ w : F16, val16 f16Min ≤ val16 w ∧ val16 w ≤ val16 f16Max) ∧
  (∀ w : F16, 0 < val16 w → val16 f16MinPositive ≤ val16 w) ∧
  (∀ w : F16, val16 w < 0 → val16 w ≤ val16 f16MaxNegative) ∧
  |val16 f16MaxNegative| < val16 f16MinPositive

/-- R47: each pseudo-operation is `FROM_BITS` of its literal: it has that operation's effect in every state, and its
word. -/
def Obligations.PseudoOperationsAreFromBitsOfLiterals : Prop :=
  ∀ s : State,
    (∃ t, exec .constZero s = .next t ∧ t.taken = some (.result 0x0000#64) ∧ t.fxW = some 0x0000#16) ∧
    (∃ t, exec .constMax s = .next t ∧ t.taken = some (.result 0x7FFF#64) ∧ t.fxW = some 0x7FFF#16) ∧
    (∃ t, exec .constMin s = .next t ∧ t.taken = some (.result 0xFFFF#64) ∧ t.fxW = some 0xFFFF#16) ∧
    (∃ t, exec .constMinPositive s = .next t ∧ t.taken = some (.result 0x0001#64) ∧ t.fxW = some 0x0001#16) ∧
    (∃ t, exec .constMaxNegative s = .next t ∧ t.taken = some (.result 0x8000#64) ∧ t.fxW = some 0x8000#16) ∧
    (∀ i : Instr, exec i s = exec i.expand s ∧ encode i = encode i.expand)

/-- R21: whatever `HOST_BYTE_ORDER` is, a host that stores a word of `n` bytes and loads it again gives the block back the
same integer; in particular for the OPEN order itself. The two orders considered are the model's choice (log entry 4). -/
def Obligations.HostByteOrderDoesNotMatter : Prop :=
  (∀ (o : ByteOrder) (n : Nat) (v : BitVec (8 * n)),
    (hostStore o n v).length = n ∧ hostLoad o n (hostStore o n v) = v) ∧
  (∀ w : F16, hostLoad Config.hostByteOrder 2 (hostStore Config.hostByteOrder 2 w) = w)
end

