-- ==== Sys2Proof/Laws/Decode.lean ====
section
/-! SUPPORT. The fields of an assembled transaction word, and operands read back from `din`. -/

namespace Sys2Proof.Machine

@[simp] theorem opField_mkTxn (op : BitVec 4) (din : BitVec 64) : opField (mkTxn op din) = op := by
  apply BitVec.eq_of_toNat_eq
  simp only [opField, mkTxn, BitVec.extractLsb'_toNat, BitVec.toNat_append]
  rw [← Nat.shiftLeft_add_eq_or_of_lt (by omega), Nat.shiftLeft_eq, Nat.shiftRight_eq_div_pow]
  omega

@[simp] theorem dinField_mkTxn (op : BitVec 4) (din : BitVec 64) : dinField (mkTxn op din) = din := by
  apply BitVec.eq_of_toNat_eq
  simp only [dinField, mkTxn, BitVec.extractLsb'_toNat, BitVec.toNat_append]
  rw [← Nat.shiftLeft_add_eq_or_of_lt (by omega), Nat.shiftLeft_eq, Nat.shiftRight_eq_div_pow]
  omega

@[simp] theorem mkTxn_fields (t : TxnWord) : mkTxn (opField t) (dinField t) = t := by
  apply BitVec.eq_of_toNat_eq
  simp only [mkTxn, opField, dinField, BitVec.toNat_append, BitVec.extractLsb'_toNat]
  rw [← Nat.shiftLeft_add_eq_or_of_lt (by omega), Nat.shiftLeft_eq, Nat.shiftRight_eq_div_pow]
  omega

@[simp] theorem operand16_setWidth (w : F16) : operand16 (w.setWidth 64) = w := by
  apply BitVec.eq_of_toNat_eq; simp [operand16]; omega

@[simp] theorem operand32_setWidth (b : Bin32) : operand32 (b.setWidth 64) = b := by
  apply BitVec.eq_of_toNat_eq; simp [operand32]; omega

@[simp] theorem operand64_self (b : Bin64) : operand64 b = b := rfl

end Sys2Proof.Machine
end

