-- ==== Sys2Proof/Laws/Formats.lean ====
section
/-! SUPPORT. Every field and test as arithmetic on the word's number, so that later proofs are linear arithmetic. -/

namespace Sys2Proof.Machine

/-! ## Fields of an F16 word -/

theorem sign16_eq (w : F16) : sign16 w = decide (32768 ≤ w.toNat) := by
  rw [sign16, BitVec.getLsbD, Nat.testBit_eq_decide_div_mod_eq]; congr 1; apply propext; omega

theorem expField16_toNat (w : F16) : (expField16 w).toNat = w.toNat / 256 % 128 := by
  simp [expField16, Nat.shiftRight_eq_div_pow]

theorem manField16_toNat (w : F16) : (manField16 w).toNat = w.toNat % 256 := by
  simp [manField16]

/-! ## Fields of a binary32 pattern -/

theorem sign32_eq (b : Bin32) : sign32 b = decide (2 ^ 31 ≤ b.toNat) := by
  rw [sign32, BitVec.getLsbD, Nat.testBit_eq_decide_div_mod_eq]; congr 1; apply propext; omega

theorem expField32_toNat (b : Bin32) : (expField32 b).toNat = b.toNat / 2 ^ 23 % 2 ^ 8 := by
  simp [expField32, Nat.shiftRight_eq_div_pow]

theorem manField32_toNat (b : Bin32) : (manField32 b).toNat = b.toNat % 2 ^ 23 := by
  simp [manField32]

theorem mag32_toNat (b : Bin32) : (mag32 b).toNat = b.toNat % 2 ^ 31 := by
  simp [mag32]

/-! ## Fields of a binary64 pattern -/

theorem sign64_eq (b : Bin64) : sign64 b = decide (2 ^ 63 ≤ b.toNat) := by
  rw [sign64, BitVec.getLsbD, Nat.testBit_eq_decide_div_mod_eq]; congr 1; apply propext; omega

theorem expField64_toNat (b : Bin64) : (expField64 b).toNat = b.toNat / 2 ^ 52 % 2 ^ 11 := by
  simp [expField64, Nat.shiftRight_eq_div_pow]

theorem manField64_toNat (b : Bin64) : (manField64 b).toNat = b.toNat % 2 ^ 52 := by
  simp [manField64]

theorem mag64_toNat (b : Bin64) : (mag64 b).toNat = b.toNat % 2 ^ 63 := by
  simp [mag64]

/-! ## The tests of a narrowing -/

theorem notFinite32_iff (b : Bin32) : notFinite32 b = true ↔ b.toNat / 2 ^ 23 % 2 ^ 8 = 255 := by
  rw [notFinite32, beq_iff_eq, ← BitVec.toNat_inj, expField32_toNat]; rfl

theorem deadZone32_iff (b : Bin32) :
    deadZone32 b = true ↔ b.toNat % 2 ^ 31 < (if 2 ^ 31 ≤ b.toNat then 0x1F800000 else 0x1F808000) := by
  rw [deadZone32, BitVec.ult, decide_eq_true_iff, mag32_toNat, deadZoneBound32, sign32_eq]
  simp only [decide_eq_true_eq]; split <;> rfl

theorem outOfRange32_iff (b : Bin32) :
    outOfRange32 b = true ↔ ¬ notFinite32 b = true ∧ 0x5F7F8000 < b.toNat % 2 ^ 31 := by
  simp [outOfRange32, BitVec.ult, mag32_toNat, rangeBound32]

theorem notFinite64_iff (b : Bin64) : notFinite64 b = true ↔ b.toNat / 2 ^ 52 % 2 ^ 11 = 2047 := by
  rw [notFinite64, beq_iff_eq, ← BitVec.toNat_inj, expField64_toNat]; rfl

theorem deadZone64_iff (b : Bin64) :
    deadZone64 b = true ↔
      b.toNat % 2 ^ 63 < (if 2 ^ 63 ≤ b.toNat then 0x3BF0000000000000 else 0x3BF0100000000000) := by
  rw [deadZone64, BitVec.ult, decide_eq_true_iff, mag64_toNat, deadZoneBound64, sign64_eq]
  simp only [decide_eq_true_eq]; split <;> rfl

theorem outOfRange64_iff (b : Bin64) :
    outOfRange64 b = true ↔ ¬ notFinite64 b = true ∧ 0x43EFF00000000000 < b.toNat % 2 ^ 63 := by
  simp [outOfRange64, BitVec.ult, mag64_toNat, rangeBound64]

/-! ## Step 3 -/

/-- The word composed from `r`, its exponent field taken modulo 128. -/
theorem compose32_toNat (r : Bin32) :
    (compose32 r).toNat =
      r.toNat / 2 ^ 31 * 2 ^ 15 + (r.toNat / 2 ^ 23 % 2 ^ 8 + 65) % 128 * 2 ^ 8 + r.toNat / 2 ^ 15 % 2 ^ 8 := by
  have he := expField32_toNat r
  have hr := r.isLt
  have h7 : (BitVec.ofInt 7 (((expField32 r).toNat : Int) - 63)).toNat = (r.toNat / 2 ^ 23 % 2 ^ 8 + 65) % 128 := by
    rw [BitVec.toNat_ofInt, he]; omega
  simp only [compose32, BitVec.toNat_append, BitVec.extractLsb'_toNat, h7, Nat.shiftRight_eq_div_pow]
  rw [← Nat.shiftLeft_add_eq_or_of_lt (by omega), ← Nat.shiftLeft_add_eq_or_of_lt (by omega), Nat.shiftLeft_eq,
    Nat.shiftLeft_eq]
  omega

/-- The word composed from `r`, its exponent field taken modulo 128. -/
theorem compose64_toNat (r : Bin64) :
    (compose64 r).toNat =
      r.toNat / 2 ^ 63 * 2 ^ 15 + (r.toNat / 2 ^ 52 % 2 ^ 11 + 65) % 128 * 2 ^ 8 + r.toNat / 2 ^ 44 % 2 ^ 8 := by
  have he := expField64_toNat r
  have hr := r.isLt
  have h7 : (BitVec.ofInt 7 (((expField64 r).toNat : Int) - 959)).toNat = (r.toNat / 2 ^ 52 % 2 ^ 11 + 65) % 128 := by
    rw [BitVec.toNat_ofInt, he]; omega
  simp only [compose64, BitVec.toNat_append, BitVec.extractLsb'_toNat, h7, Nat.shiftRight_eq_div_pow]
  rw [← Nat.shiftLeft_add_eq_or_of_lt (by omega), ← Nat.shiftLeft_add_eq_or_of_lt (by omega), Nat.shiftLeft_eq,
    Nat.shiftLeft_eq]
  omega

theorem incremented32_toNat (b : Bin32) : (incremented32 b).toNat = (b.toNat + 2 ^ 14) % 2 ^ 32 := by
  have h : roundInc32.toNat = 2 ^ 14 := by decide
  rw [incremented32, BitVec.toNat_add, h]

theorem incremented64_toNat (b : Bin64) : (incremented64 b).toNat = (b.toNat + 2 ^ 43) % 2 ^ 64 := by
  have h : roundInc64.toNat = 2 ^ 43 := by decide
  rw [incremented64, BitVec.toNat_add, h]

/-! ## The four outcomes of each lane -/

theorem enc32_of_notFinite {b : Bin32} (h : notFinite32 b = true) : enc32 b = none := by simp [enc32, h]

theorem enc32_of_deadZone {b : Bin32} (h : deadZone32 b = true) : enc32 b = some 0x0000#16 := by
  have hf : notFinite32 b = false := by
    rw [Bool.eq_false_iff, ne_eq, notFinite32_iff]; rw [deadZone32_iff] at h; split at h <;> omega
  simp [enc32, hf, h]

theorem enc32_of_outOfRange {b : Bin32} (h : outOfRange32 b = true) : enc32 b = none := by
  have hd : deadZone32 b = false := by
    rw [Bool.eq_false_iff, ne_eq, deadZone32_iff]; rw [outOfRange32_iff] at h; split <;> omega
  simp [enc32, hd, h]

theorem enc32_of_inRange {b : Bin32} (h : inRange32 b = true) : enc32 b = some (compose32 (incremented32 b)) := by
  simp only [inRange32, Bool.and_eq_true, Bool.not_eq_true'] at h; simp [enc32, h]

theorem enc64_of_notFinite {b : Bin64} (h : notFinite64 b = true) : enc64 b = none := by simp [enc64, h]

theorem enc64_of_deadZone {b : Bin64} (h : deadZone64 b = true) : enc64 b = some 0x0000#16 := by
  have hf : notFinite64 b = false := by
    rw [Bool.eq_false_iff, ne_eq, notFinite64_iff]; rw [deadZone64_iff] at h; split at h <;> omega
  simp [enc64, hf, h]

theorem enc64_of_outOfRange {b : Bin64} (h : outOfRange64 b = true) : enc64 b = none := by
  have hd : deadZone64 b = false := by
    rw [Bool.eq_false_iff, ne_eq, deadZone64_iff]; rw [outOfRange64_iff] at h; split <;> omega
  simp [enc64, hd, h]

theorem enc64_of_inRange {b : Bin64} (h : inRange64 b = true) : enc64 b = some (compose64 (incremented64 b)) := by
  simp only [inRange64, Bool.and_eq_true, Bool.not_eq_true'] at h; simp [enc64, h]

/-- Step 3 is reached exactly between the bounds of R83. -/
theorem inRange32_iff (b : Bin32) :
    inRange32 b = true ↔
      (if 2 ^ 31 ≤ b.toNat then 0x1F800000 else 0x1F808000) ≤ b.toNat % 2 ^ 31 ∧ b.toNat % 2 ^ 31 ≤ 0x5F7F8000 := by
  simp only [inRange32, Bool.and_eq_true, Bool.not_eq_true', Bool.eq_false_iff, ne_eq, notFinite32_iff, deadZone32_iff,
    outOfRange32_iff]
  split <;> omega

/-- Step 3 is reached exactly between the bounds of R83. -/
theorem inRange64_iff (b : Bin64) :
    inRange64 b = true ↔
      (if 2 ^ 63 ≤ b.toNat then 0x3BF0000000000000 else 0x3BF0100000000000) ≤ b.toNat % 2 ^ 63 ∧
      b.toNat % 2 ^ 63 ≤ 0x43EFF00000000000 := by
  simp only [inRange64, Bool.and_eq_true, Bool.not_eq_true', Bool.eq_false_iff, ne_eq, notFinite64_iff, deadZone64_iff,
    outOfRange64_iff]
  split <;> omega

/-! ## The extractor's functions and the decoder's results -/

theorem biasedExponent_toNat (w : F16) : (biasedExponent w).toNat = w.toNat / 256 % 128 := by
  simp only [biasedExponent, BitVec.toNat_setWidth, BitVec.toNat_and, BitVec.toNat_ushiftRight, BitVec.toNat_ofNat]
  rw [show 127 % 2 ^ 16 = 2 ^ 7 - 1 by rfl, Nat.and_two_pow_sub_one_eq_mod, Nat.shiftRight_eq_div_pow]; omega

theorem exponent_eq (w : F16) : exponent w = ((w.toNat / 256 % 128 : Nat) : Int) - 64 := by
  simp only [exponent, biasedExponent_toNat, f16Bias]

theorem mantissaBits_toNat (w : F16) : (mantissaBits w).toNat = w.toNat % 256 := by
  simp only [mantissaBits, BitVec.toNat_and, BitVec.toNat_ofNat]
  exact Nat.and_two_pow_sub_one_eq_mod _ 8

theorem signBit_toNat (w : F16) : (signBit w).toNat = w.toNat / 32768 * 32768 := by
  have hw := w.isLt
  have h : (32768 : Nat) = 2 ^ 15 := rfl
  simp only [signBit, BitVec.toNat_and, BitVec.toNat_ofNat, Nat.reducePow, Nat.reduceMod]
  rw [h, Nat.and_two_pow, Nat.testBit_eq_decide_div_mod_eq]
  by_cases hb : w.toNat / 2 ^ 15 % 2 = 1 <;> simp only [hb, decide_true, decide_false, Bool.toNat_true, Bool.toNat_false] <;>
    omega

end Sys2Proof.Machine
end

