-- ==== Sys2Proof/Laws/HostBytes.lean ====
section
/-! SUPPORT. The bytes of a number and the number that bytes spell. -/

namespace Sys2Proof.Machine

@[simp] theorem length_leBytes (n v : Nat) : (leBytes n v).length = n := by
  induction n generalizing v with
  | zero => rfl
  | succ n ih => simp [leBytes, ih]

theorem leValue_leBytes (n v : Nat) : leValue (leBytes n v) = v % 256 ^ n := by
  induction n generalizing v with
  | zero => simp [leBytes, leValue, Nat.mod_one]
  | succ n ih =>
    simp only [leBytes, leValue, BitVec.toNat_ofNat, ih]
    show v % 256 + _ = _
    rw [Nat.pow_succ', Nat.mod_mul]

end Sys2Proof.Machine
end

