-- ==== Sys2Proof/Laws/State.lean ====
section
/-! SUPPORT. One lemma per wire per operation on the wires: what it drives, and that it leaves every other wire alone. -/

namespace Sys2Proof.Machine

/-! ## State.present -/

@[simp] theorem State.present_txn (t : TxnWord) (s : State) : (s.present t).txn = some t := rfl
@[simp] theorem State.present_fxW (t : TxnWord) (s : State) : (s.present t).fxW = s.fxW := rfl
@[simp] theorem State.present_decW (t : TxnWord) (s : State) : (s.present t).decW = s.decW := rfl
@[simp] theorem State.present_encF32 (t : TxnWord) (s : State) : (s.present t).encF32 = s.encF32 := rfl
@[simp] theorem State.present_encF64 (t : TxnWord) (s : State) : (s.present t).encF64 = s.encF64 := rfl
@[simp] theorem State.present_taken (t : TxnWord) (s : State) : (s.present t).taken = s.taken := rfl

/-! ## State.driveFx -/

@[simp] theorem State.driveFx_txn (w : F16) (s : State) : (s.driveFx w).txn = s.txn := rfl
@[simp] theorem State.driveFx_fxW (w : F16) (s : State) : (s.driveFx w).fxW = some w := rfl
@[simp] theorem State.driveFx_decW (w : F16) (s : State) : (s.driveFx w).decW = s.decW := rfl
@[simp] theorem State.driveFx_encF32 (w : F16) (s : State) : (s.driveFx w).encF32 = s.encF32 := rfl
@[simp] theorem State.driveFx_encF64 (w : F16) (s : State) : (s.driveFx w).encF64 = s.encF64 := rfl
@[simp] theorem State.driveFx_taken (w : F16) (s : State) : (s.driveFx w).taken = s.taken := rfl

/-! ## State.driveDec -/

@[simp] theorem State.driveDec_txn (w : F16) (s : State) : (s.driveDec w).txn = s.txn := rfl
@[simp] theorem State.driveDec_fxW (w : F16) (s : State) : (s.driveDec w).fxW = s.fxW := rfl
@[simp] theorem State.driveDec_decW (w : F16) (s : State) : (s.driveDec w).decW = some w := rfl
@[simp] theorem State.driveDec_encF32 (w : F16) (s : State) : (s.driveDec w).encF32 = s.encF32 := rfl
@[simp] theorem State.driveDec_encF64 (w : F16) (s : State) : (s.driveDec w).encF64 = s.encF64 := rfl
@[simp] theorem State.driveDec_taken (w : F16) (s : State) : (s.driveDec w).taken = s.taken := rfl

/-! ## State.driveEnc32 -/

@[simp] theorem State.driveEnc32_txn (b : Bin32) (s : State) : (s.driveEnc32 b).txn = s.txn := rfl
@[simp] theorem State.driveEnc32_fxW (b : Bin32) (s : State) : (s.driveEnc32 b).fxW = s.fxW := rfl
@[simp] theorem State.driveEnc32_decW (b : Bin32) (s : State) : (s.driveEnc32 b).decW = s.decW := rfl
@[simp] theorem State.driveEnc32_encF32 (b : Bin32) (s : State) : (s.driveEnc32 b).encF32 = some b := rfl
@[simp] theorem State.driveEnc32_encF64 (b : Bin32) (s : State) : (s.driveEnc32 b).encF64 = s.encF64 := rfl
@[simp] theorem State.driveEnc32_taken (b : Bin32) (s : State) : (s.driveEnc32 b).taken = s.taken := rfl

/-! ## State.driveEnc64 -/

@[simp] theorem State.driveEnc64_txn (b : Bin64) (s : State) : (s.driveEnc64 b).txn = s.txn := rfl
@[simp] theorem State.driveEnc64_fxW (b : Bin64) (s : State) : (s.driveEnc64 b).fxW = s.fxW := rfl
@[simp] theorem State.driveEnc64_decW (b : Bin64) (s : State) : (s.driveEnc64 b).decW = s.decW := rfl
@[simp] theorem State.driveEnc64_encF32 (b : Bin64) (s : State) : (s.driveEnc64 b).encF32 = s.encF32 := rfl
@[simp] theorem State.driveEnc64_encF64 (b : Bin64) (s : State) : (s.driveEnc64 b).encF64 = some b := rfl
@[simp] theorem State.driveEnc64_taken (b : Bin64) (s : State) : (s.driveEnc64 b).taken = s.taken := rfl

/-! ## State.returns -/

@[simp] theorem State.returns_txn {n : Nat} (v : BitVec n) (s : State) : (s.returns v).txn = s.txn := rfl
@[simp] theorem State.returns_fxW {n : Nat} (v : BitVec n) (s : State) : (s.returns v).fxW = s.fxW := rfl
@[simp] theorem State.returns_decW {n : Nat} (v : BitVec n) (s : State) : (s.returns v).decW = s.decW := rfl
@[simp] theorem State.returns_encF32 {n : Nat} (v : BitVec n) (s : State) : (s.returns v).encF32 = s.encF32 := rfl
@[simp] theorem State.returns_encF64 {n : Nat} (v : BitVec n) (s : State) : (s.returns v).encF64 = s.encF64 := rfl
@[simp] theorem State.returns_taken {n : Nat} (v : BitVec n) (s : State) : (s.returns v).taken = some (.result (doutOf v)) := rfl

/-! ## State.raiseConversionFailure -/

@[simp] theorem State.raiseConversionFailure_txn (s : State) : (s.raiseConversionFailure).txn = s.txn := rfl
@[simp] theorem State.raiseConversionFailure_fxW (s : State) : (s.raiseConversionFailure).fxW = s.fxW := rfl
@[simp] theorem State.raiseConversionFailure_decW (s : State) : (s.raiseConversionFailure).decW = s.decW := rfl
@[simp] theorem State.raiseConversionFailure_encF32 (s : State) : (s.raiseConversionFailure).encF32 = s.encF32 := rfl
@[simp] theorem State.raiseConversionFailure_encF64 (s : State) : (s.raiseConversionFailure).encF64 = s.encF64 := rfl
@[simp] theorem State.raiseConversionFailure_taken (s : State) : (s.raiseConversionFailure).taken = some .conversionFailure := rfl

/-! ## State.withFetchWord -/

@[simp] theorem State.withFetchWord_txn (s : State) (nbits w : Nat) : (s.withFetchWord nbits w).txn = txnOfTableWord nbits w := rfl
@[simp] theorem State.withFetchWord_fxW (s : State) (nbits w : Nat) : (s.withFetchWord nbits w).fxW = s.fxW := rfl
@[simp] theorem State.withFetchWord_decW (s : State) (nbits w : Nat) : (s.withFetchWord nbits w).decW = s.decW := rfl
@[simp] theorem State.withFetchWord_encF32 (s : State) (nbits w : Nat) : (s.withFetchWord nbits w).encF32 = s.encF32 := rfl
@[simp] theorem State.withFetchWord_encF64 (s : State) (nbits w : Nat) : (s.withFetchWord nbits w).encF64 = s.encF64 := rfl
@[simp] theorem State.withFetchWord_taken (s : State) (nbits w : Nat) : (s.withFetchWord nbits w).taken = s.taken := rfl

/-! ## State.endNarrowing -/

@[simp] theorem State.endNarrowing_some (w : F16) (s : State) : s.endNarrowing (some w) = s.returns w := rfl
@[simp] theorem State.endNarrowing_none (s : State) : s.endNarrowing none = s.raiseConversionFailure := rfl

@[simp] theorem State.endNarrowing_txn (r : Option F16) (s : State) : (s.endNarrowing r).txn = s.txn := by
  cases r <;> rfl
@[simp] theorem State.endNarrowing_fxW (r : Option F16) (s : State) : (s.endNarrowing r).fxW = s.fxW := by
  cases r <;> rfl
@[simp] theorem State.endNarrowing_decW (r : Option F16) (s : State) : (s.endNarrowing r).decW = s.decW := by
  cases r <;> rfl
@[simp] theorem State.endNarrowing_encF32 (r : Option F16) (s : State) : (s.endNarrowing r).encF32 = s.encF32 := by
  cases r <;> rfl
@[simp] theorem State.endNarrowing_encF64 (r : Option F16) (s : State) : (s.endNarrowing r).encF64 = s.encF64 := by
  cases r <;> rfl

/-- What a narrowing leaves taken: its word zero-extended, or the failure. -/
theorem State.endNarrowing_taken (r : Option F16) (s : State) :
    (s.endNarrowing r).taken = match r with | some w => some (.result (doutOf w)) | none => some .conversionFailure := by
  cases r <;> rfl

end Sys2Proof.Machine
end

