-- ==== Sys2Proof/Laws/Ops.lean ====
section
/-! SUPPORT. What an operation and a step can do, said once: which unit's input an operation drives, that every operation
answers a next state, and the cases of a step. -/

namespace Sys2Proof.Machine

/-- The four shapes of an operation's next state: it drives one unit's input port and takes one outcome. -/
inductive Effect (s t : State) : Prop where
  | fx (w : F16) (d : Dout) (h : t = { s with fxW := some w, taken := some (.result d) })
  | dec (w : F16) (d : Dout) (h : t = { s with decW := some w, taken := some (.result d) })
  | lane32 (b : Bin32) (h : t = (s.driveEnc32 b).endNarrowing (enc32 b))
  | lane64 (b : Bin64) (h : t = (s.driveEnc64 b).endNarrowing (enc64 b))

/-- Inversion of an operation: its next state has one of the four shapes. -/
theorem exec_effect {i : Instr} {s t : State} (h : exec i s = .next t) : Effect s t := by
  cases i with
  | fromBits w => exact .fx w _ (Host.Outcome.next.inj h).symm
  | toBits w => exact .fx w _ (Host.Outcome.next.inj h).symm
  | signBit w => exact .fx w _ (Host.Outcome.next.inj h).symm
  | biasedExponent w => exact .fx w _ (Host.Outcome.next.inj h).symm
  | exponent w => exact .fx w _ (Host.Outcome.next.inj h).symm
  | mantissaBits w => exact .fx w _ (Host.Outcome.next.inj h).symm
  | dec32 w => exact .dec w _ (Host.Outcome.next.inj h).symm
  | dec64 w => exact .dec w _ (Host.Outcome.next.inj h).symm
  | enc32 b => exact .lane32 b (Host.Outcome.next.inj h).symm
  | enc64 b => exact .lane64 b (Host.Outcome.next.inj h).symm
  | constZero => exact .fx _ _ (Host.Outcome.next.inj h).symm
  | constMax => exact .fx _ _ (Host.Outcome.next.inj h).symm
  | constMin => exact .fx _ _ (Host.Outcome.next.inj h).symm
  | constMinPositive => exact .fx _ _ (Host.Outcome.next.inj h).symm
  | constMaxNegative => exact .fx _ _ (Host.Outcome.next.inj h).symm

/-- Every operation answers a next state. -/
theorem exec_answers_next (i : Instr) (s : State) : ∃ t, exec i s = .next t := by
  cases i <;> exact ⟨_, rfl⟩

/-- No operation changes the transaction the host holds. -/
theorem exec_keeps_txn {i : Instr} {s t : State} (h : exec i s = .next t) : t.txn = s.txn := by
  cases exec_effect h with
  | fx w d h => rw [h]
  | dec w d h => rw [h]
  | lane32 b h => simp [h]
  | lane64 b h => simp [h]

/-- Inversion of a step: where it answers a next state, a transaction is presented, it decodes, and the operation gave that
state. -/
theorem step_next_cases {s u : State} (h : step s = .next u) :
    ∃ t i, s.txn = some t ∧ decode t = .ok i ∧ exec i s = .next u := by
  unfold step at h
  split at h
  · cases h
  next t ht =>
    split at h
    next i hi => exact ⟨t, i, ht, hi, h⟩
    · cases h

/-- A step that is refused is refused for one of two reasons. -/
theorem step_refused_cases {s : State} {r : Refusal} (h : step s = .refused r) :
    (s.txn = none ∧ r = .noTransaction) ∨
    ∃ t op, s.txn = some t ∧ decode t = .error (.reservedOperation op) ∧ r = .reservedOperation op := by
  unfold step at h
  split at h
  next ht => cases h; exact .inl ⟨ht, rfl⟩
  next t ht =>
    split at h
    next i hi => obtain ⟨t, e⟩ := exec_answers_next i s; rw [e] at h; cases h
    next op hop => cases h; exact .inr ⟨t, op, ht, hop, rfl⟩

/-- What the 32-bit lane's two ports show together: its word, or its failure. -/
theorem laneOutcome_enc32 {s : State} {b : Bin32} (h : s.encF32 = some b) :
    laneOutcome s.enc32Err s.enc32W =
      some (match enc32 b with | some w => .result (doutOf w) | none => .conversionFailure) := by
  simp only [State.enc32Err, State.enc32W, h, Option.map_some]; cases enc32 b <;> rfl

/-- What the 64-bit lane's two ports show together: its word, or its failure. -/
theorem laneOutcome_enc64 {s : State} {b : Bin64} (h : s.encF64 = some b) :
    laneOutcome s.enc64Err s.enc64W =
      some (match enc64 b with | some w => .result (doutOf w) | none => .conversionFailure) := by
  simp only [State.enc64Err, State.enc64W, h, Option.map_some]; cases enc64 b <;> rfl

end Sys2Proof.Machine
end

