-- ==== Sys2Proof/Laws/PerInstr.lean ====
section
/-! SUPPORT. One family of statements about every operation as syntax: its encoding. Its transaction word carries an assigned
index, is the word of its expansion, has no bit set above its operand, and its expansion is a format-`T` operation. -/

namespace Sys2Proof.Laws.Encoding

open Sys2Proof Sys2Proof.Machine

/-- What holds of an operation's transaction word (R43, R44, R47). -/
def Statement (i : Instr) : Prop :=
  txnWellFormed (encode i) = true ∧ encode i.expand = encode i ∧ i.expand.wellFormed = true ∧
  (dinField (encode i)).toNat < 2 ^ i.operandWidth

/-- An operation whose word is assembled from an assigned index and an operand of its width meets the statement. -/
theorem of_mkTxn {i : Instr} {op : BitVec 4} {din : BitVec 64} (he : encode i = mkTxn op din) (hop : assignedOp op = true)
    (hx : encode i.expand = encode i) (hw : i.expand.wellFormed = true) (hd : din.toNat < 2 ^ i.operandWidth) :
    Statement i :=
  ⟨by rw [he, txnWellFormed, opField_mkTxn, hop], hx, hw, by rw [he, dinField_mkTxn]; exact hd⟩

/-- A 16-bit operand in `din` has no bit above bit 15. -/
theorem din16_lt (w : F16) : (w.setWidth 64).toNat < 2 ^ 16 := by simp; omega

/-- A 32-bit operand in `din` has no bit above bit 31. -/
theorem din32_lt (b : Bin32) : (b.setWidth 64).toNat < 2 ^ 32 := by simp; omega

theorem fromBits (w : F16) : Statement (.fromBits w) := of_mkTxn rfl rfl rfl rfl (din16_lt w)
theorem toBits (w : F16) : Statement (.toBits w) := of_mkTxn rfl rfl rfl rfl (din16_lt w)
theorem signBit (w : F16) : Statement (.signBit w) := of_mkTxn rfl rfl rfl rfl (din16_lt w)
theorem biasedExponent (w : F16) : Statement (.biasedExponent w) := of_mkTxn rfl rfl rfl rfl (din16_lt w)
theorem exponent (w : F16) : Statement (.exponent w) := of_mkTxn rfl rfl rfl rfl (din16_lt w)
theorem mantissaBits (w : F16) : Statement (.mantissaBits w) := of_mkTxn rfl rfl rfl rfl (din16_lt w)
theorem dec32 (w : F16) : Statement (.dec32 w) := of_mkTxn rfl rfl rfl rfl (din16_lt w)
theorem dec64 (w : F16) : Statement (.dec64 w) := of_mkTxn rfl rfl rfl rfl (din16_lt w)
theorem enc32 (b : Bin32) : Statement (.enc32 b) := of_mkTxn rfl rfl rfl rfl (din32_lt b)
theorem enc64 (b : Bin64) : Statement (.enc64 b) := of_mkTxn rfl rfl rfl rfl b.isLt
theorem constZero : Statement .constZero := of_mkTxn rfl rfl rfl rfl (din16_lt f16Zero)
theorem constMax : Statement .constMax := of_mkTxn rfl rfl rfl rfl (din16_lt f16Max)
theorem constMin : Statement .constMin := of_mkTxn rfl rfl rfl rfl (din16_lt f16Min)
theorem constMinPositive : Statement .constMinPositive := of_mkTxn rfl rfl rfl rfl (din16_lt f16MinPositive)
theorem constMaxNegative : Statement .constMaxNegative := of_mkTxn rfl rfl rfl rfl (din16_lt f16MaxNegative)

end Sys2Proof.Laws.Encoding
end

