-- ==== Sys2Proof/Laws/Values.lean ====
section
/-! SUPPORT. The value of a word from its fields: the cases of R31 and R41, one lemma each. -/

namespace Sys2Proof.Machine

@[simp] theorem signFactor_false : signFactor false = 1 := rfl
@[simp] theorem signFactor_true : signFactor true = -1 := rfl

@[simp] theorem val16_zero : val16 0x0000#16 = 0 := by rw [val16, if_pos (by decide)]

/-- The value of a nonzero word with given fields (R31). -/
theorem val16_of_fields {w : F16} (s : Bool) (e m : Nat) (hz : w ≠ 0x0000#16) (hs : sign16 w = s)
    (he : (expField16 w).toNat = e) (hm : (manField16 w).toNat = m) :
    val16 w = signFactor s * (2 : ℚ) ^ ((e : ℤ) - 64) * (1 + (m : ℚ) / 256) := by
  rw [val16, if_neg (show ¬ w = f16Zero from hz), hs, he, hm]; rfl

theorem val32_of_notFinite {b : Bin32} (h : notFinite32 b = true) : val32 b = none := by simp [val32, h]
theorem val64_of_notFinite {b : Bin64} (h : notFinite64 b = true) : val64 b = none := by simp [val64, h]

/-- The value of a finite binary32 pattern with given fields (R41). -/
theorem val32_of_fields {b : Bin32} (s : Bool) (e f : Nat) (hf : notFinite32 b = false) (hs : sign32 b = s)
    (he : (expField32 b).toNat = e) (hm : (manField32 b).toNat = f) : val32 b = some (valWide 23 127 s e f) := by
  simp [val32, hf, hs, he, hm, bin32Bias]

/-- The value of a finite binary64 pattern with given fields (R41). -/
theorem val64_of_fields {b : Bin64} (s : Bool) (e f : Nat) (hf : notFinite64 b = false) (hs : sign64 b = s)
    (he : (expField64 b).toNat = e) (hm : (manField64 b).toNat = f) : val64 b = some (valWide 52 1023 s e f) := by
  simp [val64, hf, hs, he, hm, bin64Bias]

/-- A wide pattern has a value exactly when it is finite (R40, R41). -/
theorem val32_isSome (b : Bin32) : (val32 b).isSome = !notFinite32 b := by
  cases h : notFinite32 b <;> simp [val32, h]

/-- A wide pattern has a value exactly when it is finite (R40, R41). -/
theorem val64_isSome (b : Bin64) : (val64 b).isSome = !notFinite64 b := by
  cases h : notFinite64 b <;> simp [val64, h]

/-- A normal field pair (R41). -/
theorem valWide_normal (mw : Nat) (bias : Int) (s : Bool) {e : Nat} (f : Nat) (h : e ≠ 0) :
    valWide mw bias s e f = signFactor s * (2 : ℚ) ^ ((e : ℤ) - bias) * (1 + (f : ℚ) / 2 ^ mw) := if_neg h

/-- A zero or subnormal field pair (R41). -/
theorem valWide_subnormal (mw : Nat) (bias : Int) (s : Bool) (f : Nat) :
    valWide mw bias s 0 f = signFactor s * (2 : ℚ) ^ (1 - bias) * ((f : ℚ) / 2 ^ mw) := if_pos rfl

end Sys2Proof.Machine
end

