-- ==== Sys2Proof/Tests/Slice0.lean ====
section
/-! SUPPORT. The model's own tests. Expected results come from the spec: 95_test_vectors.md (row ids E.., F.. are its own),
the corner cases of the rules, and words written out by hand from 30_encoding.md R43. The last section holds, for each
statement with hypotheses, a concrete case that meets them. -/

namespace Sys2Proof.Tests

open Sys2Proof Sys2Proof.Machine

/-- The outcome taken in a next state. -/
def takenOf : Host.Outcome State Fault Refusal → Option TxnOutcome
  | .next t => t.taken
  | .fault _ => none
  | .refused _ => none

/-- The refusal, where there is one. -/
def refusalOf : Host.Outcome State Fault Refusal → Option Refusal
  | .next _ => none
  | .fault _ => none
  | .refused r => some r

/-- The state a step or an operation answers, or the reset state where it answers none. -/
def stateOf : Host.Outcome State Fault Refusal → State
  | .next t => t
  | .fault _ => .reset
  | .refused _ => .reset

/-- One transaction from reset, its word numbered as the opcode table numbers it. -/
def runWord (w : Nat) : Host.Outcome State Fault Refusal := step (State.reset.withFetchWord 72 w)

/-- The outcome that carries a word. -/
def res (n : Nat) : Option TxnOutcome := some (.result (BitVec.ofNat 64 n))

/-- The outcome that carries the failure. -/
def fail : Option TxnOutcome := some .conversionFailure

/-! ## WellFormed: each check refuses an ill-formed term -/

theorem test_reserved_words_are_ill_formed :
    [0xA, 0xB, 0xC, 0xD, 0xE, 0xF].all (fun n => !txnWellFormed (mkTxn (BitVec.ofNat 4 n) 0x4000#64)) = true := by decide

theorem test_assigned_words_are_well_formed :
    (List.range 10).all (fun n => txnWellFormed (mkTxn (BitVec.ofNat 4 n) 0xFFFFFFFFFFFFFFFF#64)) = true := by decide

theorem test_pseudo_operations_are_ill_formed :
    [Instr.constZero, .constMax, .constMin, .constMinPositive, .constMaxNegative].all (fun i => !i.wellFormed) = true := by
  decide

/-! ## Decode: each operation's word, written out as `op:din` (R43) -/

theorem test_decode_from_bits : decodeTableWord 72 0x0000000000000ABCD = some (.fromBits 0xABCD) := by decide
theorem test_decode_to_bits : decodeTableWord 72 0x10000000000004192 = some (.toBits 0x4192) := by decide
theorem test_decode_sign_bit : decodeTableWord 72 0x2000000000000C140 = some (.signBit 0xC140) := by decide
theorem test_decode_biased_exponent : decodeTableWord 72 0x3000000000000C140 = some (.biasedExponent 0xC140) := by decide
theorem test_decode_exponent : decodeTableWord 72 0x4000000000000C140 = some (.exponent 0xC140) := by decide
theorem test_decode_mantissa_bits : decodeTableWord 72 0x5000000000000C140 = some (.mantissaBits 0xC140) := by decide
theorem test_decode_dec32_ignores_upper_din :
    decodeTableWord 72 0x6FFFFFFFFFFFFC140 = some (.dec32 0xC140) := by decide
theorem test_decode_dec64 : decodeTableWord 72 0x70000000000007FFF = some (.dec64 0x7FFF) := by decide
theorem test_decode_enc32_ignores_upper_din :
    decodeTableWord 72 0x8ABCDEF0140490FDB = some (.enc32 0x40490FDB) := by decide
theorem test_decode_enc64 : decodeTableWord 72 0x9400921FB54442D18 = some (.enc64 0x400921FB54442D18) := by decide
theorem test_decode_const_words_are_from_bits :
    decodeTableWord 72 0x00000000000007FFF = some (.fromBits 0x7FFF) ∧ decodeTableWord 72 0 = some (.fromBits 0) := by
  decide
theorem test_decode_reserved_index : decodeTableWord 72 0xA0000000000000000 = none := by decide
theorem test_decode_no_bit_above_67 : decodeTableWord 72 0x100000000000004192 = none := by decide

theorem test_encode_words :
    encode (.signBit 0xC140) = 0x2000000000000C140#68 ∧ encode (.enc32 0x40490FDB) = 0x80000000040490FDB#68 ∧
    encode .constMaxNegative = 0x00000000000008000#68 := by decide

theorem test_table_rows_are_disjoint :
    formatTRows.Pairwise (fun r r' => r.mask = r'.mask ∧ r.matchBits ≠ r'.matchBits) := by decide

/-! ## f16_field_extractor (vectors 2.1) -/

theorem test_from_bits : takenOf (runWord 0x0000000000000ABCD) = res 0xABCD := by decide
theorem test_to_bits : takenOf (runWord 0x10000000000004192) = res 0x4192 := by decide
theorem test_sign_bit : [0xC140, 0x4140, 0x8000, 0xABCD].map (fun w => takenOf (exec (.signBit w) .reset)) =
    [res 0x8000, res 0, res 0x8000, res 0x8000] := by decide
theorem test_biased_exponent : [0xC140, 0x8000, 0xFFFF, 0xABCD].map (fun w => takenOf (exec (.biasedExponent w) .reset)) =
    [res 65, res 0, res 127, res 43] := by decide
theorem test_exponent : [0x0000, 0x3F00, 0x4000, 0xABCD, 0x7FFF].map (fun w => takenOf (exec (.exponent w) .reset)) =
    [res 0xC0, res 0xFF, res 0x00, res 0xEB, res 0x3F] := by decide
theorem test_exponent_integer : [0x0000, 0x3F00, 0x1234, 0xFFFF].map exponent = [-64, -1, -46, 63] := by decide
theorem test_mantissa_bits : [0xC140, 0xFFFF, 0xABCD].map (fun w => takenOf (exec (.mantissaBits w) .reset)) =
    [res 0x40, res 0xFF, res 0xCD] := by decide

/-! ## fp16_decoder (vectors 2.2) -/

theorem test_dec32 : [0x0000, 0x8000, 0x0001, 0xC140, 0xABCD, 0x7FFF].map (fun w => takenOf (exec (.dec32 w) .reset)) =
    [res 0, res 0x9F800000, res 0x1F808000, res 0xC0200000, res 0xB5668000, res 0x5F7F8000] := by decide
theorem test_dec64 : [0x0000, 0x8000, 0x0001, 0xC140, 0x1234, 0xFFFF].map (fun w => takenOf (exec (.dec64 w) .reset)) =
    [res 0, res 0xBBF0000000000000, res 0x3BF0100000000000, res 0xC004000000000000, res 0x3D13400000000000,
      res 0xC3EFF00000000000] := by decide

/-! ## fp16_encoder (vectors 2.3 and 2.4) -/

/-- E2, E7, E8, E12 (dead zone); E9, E11, E13, E15, E20, E21, E23, E24, E26 (rounded); E31, E32, E33, E42, E35, E37, E40. -/
theorem test_enc32 :
    [0x80000000, 0x1F804000, 0x1F807FFF, 0x9F7FFFFF].map enc32 = [some 0, some 0, some 0, some 0] ∧
    [0x1F808000, 0x1F80C000, 0x9F800000, 0x9F804000].map enc32 = [some 0x0001, some 0x0002, some 0x8000, some 0x8001] ∧
    [0x3F804000, 0xBF804000, 0x3FFFC000, 0x40490FDB, 0x3DCCCCCD].map enc32 =
      [some 0x4001, some 0xC001, some 0x4100, some 0x4192, some 0x3C9A] ∧
    [0x5F7F8000, 0x5F7F8001, 0x5F7FBFFF, 0xDF7F8000, 0xDF7F8001, 0x7F800000, 0xFFC00000].map enc32 =
      [some 0x7FFF, none, none, some 0xFFFF, none, none, none] := by decide

/-- F2, F6, F7, F9 (dead zone); F8, F10, F11, F12, F13, F15, F17, F18, F20 (rounded); F21, F22, F23, F25, F28, F29. -/
theorem test_enc64 :
    [0x8000000000000000, 0x3BF0080000000000, 0x3BF00FFFFFFFFFFF, 0xBBEFFFFFFFFFFFFF].map enc64 =
      [some 0, some 0, some 0, some 0] ∧
    [0x3BF0100000000000, 0xBBF0000000000000, 0xBBF0080000000000].map enc64 =
      [some 0x0001, some 0x8000, some 0x8001] ∧
    [0x3FF0080000000000, 0x3FF007FFFFFFFFFF, 0xBFF0080000000000, 0x3FFFF80000000000, 0x400921FB54442D18,
      0x3FB999999999999A].map enc64 =
      [some 0x4001, some 0x4000, some 0xC001, some 0x4100, some 0x4192, some 0x3C9A] ∧
    [0x43EFF00000000000, 0x43EFF00000000001, 0x43EFF7FFFFFFFFFF, 0xC3EFF00000000001, 0xFFF0000000000000,
      0x7FF0000000000001].map enc64 = [some 0x7FFF, none, none, none, none, none] := by decide

/-- E24, E32: the outcome as the transaction shows it. -/
theorem test_enc32_transaction :
    takenOf (runWord 0x80000000040490FDB) = res 0x4192 ∧ takenOf (runWord 0x8000000005F7F8001) = fail := by decide

/-- Program 4 lines 3 and 6: two failures of the 64-bit lane. -/
theorem test_enc64_transaction :
    takenOf (runWord 0x943FFF00000000000) = fail ∧ takenOf (runWord 0x943EFF80000000000) = fail ∧
    takenOf (runWord 0x9C004000000000000) = res 0xC140 := by decide

/-- Rows E1 and E37 "differ only in the `err` bit" on the ports (R82). -/
theorem test_enc32_ports :
    let s := stateOf (exec (.enc32 0x00000000) .reset)
    let t := stateOf (exec (.enc32 0x7F800000) .reset)
    s.enc32Err = some false ∧ s.enc32W = some 0 ∧ t.enc32Err = some true ∧ t.enc32W = some 0 := by decide

/-! ## Pseudo-operations (R33 to R37, R47) -/

theorem test_constants : [Instr.constZero, .constMax, .constMin, .constMinPositive, .constMaxNegative].map
    (fun i => takenOf (exec i .reset)) = [res 0x0000, res 0x7FFF, res 0xFFFF, res 0x0001, res 0x8000] := by decide

/-! ## Step and ports -/

theorem test_step_from_reset_is_refused : refusalOf (step State.reset) = some .noTransaction := by decide
theorem test_reserved_index_is_refused : refusalOf (runWord 0xF0000000000004000) = some (.reservedOperation 0xF) := by decide

/-- R15: driving `fx_w` drives all five outputs at once, and no other unit's. -/
theorem test_extractor_ports :
    let s := State.reset.driveFx 0xC140
    s.fxBits = some 0xC140 ∧ s.fxSign = some 0x8000 ∧ s.fxBexp = some 65 ∧ s.fxExp = some 1 ∧ s.fxMant = some 0x40 ∧
    s.decF32 = none ∧ s.enc64Err = none := by decide

theorem test_host_bytes :
    hostStore .littleEndian 2 0x4192#16 = [0x92, 0x41] ∧ hostStore .bigEndian 2 0x4192#16 = [0x41, 0x92] := by decide

/-! ## Values used below, each from its fields (R31, R41); the numbers are the spec's or worked by hand -/

theorem val16_8000 : val16 0x8000 = -1 / 2 ^ 64 := by
  rw [val16_of_fields true 0 0 (by decide) (by decide) (by decide) (by decide)]; norm_num
theorem val16_4192 : val16 0x4192 = 3.140625 := by
  rw [val16_of_fields false 65 146 (by decide) (by decide) (by decide) (by decide)]; norm_num
theorem val16_0001 : val16 0x0001 = 257 / 2 ^ 72 := by
  rw [val16_of_fields false 0 1 (by decide) (by decide) (by decide) (by decide)]; norm_num
theorem val16_7FFF : val16 0x7FFF = 511 * 2 ^ 55 := by
  rw [val16_of_fields false 127 255 (by decide) (by decide) (by decide) (by decide)]; norm_num
theorem val16_4000 : val16 0x4000 = 1 := by
  rw [val16_of_fields false 64 0 (by decide) (by decide) (by decide) (by decide)]; norm_num
theorem val16_C000 : val16 0xC000 = -1 := by
  rw [val16_of_fields true 64 0 (by decide) (by decide) (by decide) (by decide)]; norm_num
theorem val16_4001 : val16 0x4001 = 257 / 256 := by
  rw [val16_of_fields false 64 1 (by decide) (by decide) (by decide) (by decide)]; norm_num
theorem val16_C140 : val16 0xC140 = -2.5 := by
  rw [val16_of_fields true 65 64 (by decide) (by decide) (by decide) (by decide)]; norm_num
theorem val32_9F000000 : val32 0x9F000000 = some (-1 / 2 ^ 65) := by
  rw [val32_of_fields true 62 0 (by decide) (by decide) (by decide) (by decide), valWide_normal _ _ _ _ (by decide)]; norm_num
theorem val32_5F800000 : val32 0x5F800000 = some (2 ^ 64) := by
  rw [val32_of_fields false 191 0 (by decide) (by decide) (by decide) (by decide), valWide_normal _ _ _ _ (by decide)]; norm_num
theorem val32_40400000 : val32 0x40400000 = some (3) := by
  rw [val32_of_fields false 128 4194304 (by decide) (by decide) (by decide) (by decide), valWide_normal _ _ _ _ (by decide)]; norm_num
theorem val32_C0400000 : val32 0xC0400000 = some (-3) := by
  rw [val32_of_fields true 128 4194304 (by decide) (by decide) (by decide) (by decide), valWide_normal _ _ _ _ (by decide)]; norm_num
theorem val32_3F804000 : val32 0x3F804000 = some (513 / 512) := by
  rw [val32_of_fields false 127 16384 (by decide) (by decide) (by decide) (by decide), valWide_normal _ _ _ _ (by decide)]; norm_num
theorem val32_1F800000 : val32 0x1F800000 = some (1 / 2 ^ 64) := by
  rw [val32_of_fields false 63 0 (by decide) (by decide) (by decide) (by decide), valWide_normal _ _ _ _ (by decide)]; norm_num
theorem val32_9F7FC000 : val32 0x9F7FC000 = some (-1023 / 2 ^ 74) := by
  rw [val32_of_fields true 62 8372224 (by decide) (by decide) (by decide) (by decide), valWide_normal _ _ _ _ (by decide)]; norm_num
theorem val32_5F7FA000 : val32 0x5F7FA000 = some (2 ^ 53 * 2045) := by
  rw [val32_of_fields false 190 8364032 (by decide) (by decide) (by decide) (by decide), valWide_normal _ _ _ _ (by decide)]; norm_num
theorem val32_C0200000 : val32 0xC0200000 = some (-2.5) := by
  rw [val32_of_fields true 128 2097152 (by decide) (by decide) (by decide) (by decide), valWide_normal _ _ _ _ (by decide)]; norm_num
theorem val64_BBE0000000000000 : val64 0xBBE0000000000000 = some (-1 / 2 ^ 65) := by
  rw [val64_of_fields true 958 0 (by decide) (by decide) (by decide) (by decide), valWide_normal _ _ _ _ (by decide)]; norm_num
theorem val64_43F0000000000000 : val64 0x43F0000000000000 = some (2 ^ 64) := by
  rw [val64_of_fields false 1087 0 (by decide) (by decide) (by decide) (by decide), valWide_normal _ _ _ _ (by decide)]; norm_num
theorem val64_4008000000000000 : val64 0x4008000000000000 = some (3) := by
  rw [val64_of_fields false 1024 2251799813685248 (by decide) (by decide) (by decide) (by decide), valWide_normal _ _ _ _ (by decide)]; norm_num
theorem val64_C008000000000000 : val64 0xC008000000000000 = some (-3) := by
  rw [val64_of_fields true 1024 2251799813685248 (by decide) (by decide) (by decide) (by decide), valWide_normal _ _ _ _ (by decide)]; norm_num
theorem val64_3BF0000000000000 : val64 0x3BF0000000000000 = some (1 / 2 ^ 64) := by
  rw [val64_of_fields false 959 0 (by decide) (by decide) (by decide) (by decide), valWide_normal _ _ _ _ (by decide)]; norm_num
theorem val64_BBEFF80000000000 : val64 0xBBEFF80000000000 = some (-1023 / 2 ^ 74) := by
  rw [val64_of_fields true 958 4494803534348288 (by decide) (by decide) (by decide) (by decide), valWide_normal _ _ _ _ (by decide)]; norm_num
theorem val64_43EFF40000000000 : val64 0x43EFF40000000000 = some (2 ^ 53 * 2045) := by
  rw [val64_of_fields false 1086 4490405487837184 (by decide) (by decide) (by decide) (by decide), valWide_normal _ _ _ _ (by decide)]; norm_num
theorem val64_C004000000000000 : val64 0xC004000000000000 = some (-2.5) := by
  rw [val64_of_fields true 1024 1125899906842624 (by decide) (by decide) (by decide) (by decide), valWide_normal _ _ _ _ (by decide)]; norm_num

/-! ## Witnesses: for each statement with hypotheses, a case that meets them -/

/-- A state that presents a word. -/
def presenting (t : TxnWord) : State := State.reset.present t

theorem wit_StepRunsDecodedTransaction :
    (presenting 0x6000000000000C140).txn = some 0x6000000000000C140 ∧
    decode 0x6000000000000C140 = .ok (.dec32 0xC140) := by decide

theorem wit_AssignedIndexCompletesReservedIsRefused :
    (presenting 0x9FFFFFFFFFFFFFFFF).txn = some 0x9FFFFFFFFFFFFFFFF ∧
    ((0x9FFFFFFFFFFFFFFFF#68).extractLsb' 64 4).toNat ≤ 9 ∧
    (presenting 0xA0000000000000000).txn = some 0xA0000000000000000 ∧
    10 ≤ ((0xA0000000000000000#68).extractLsb' 64 4).toNat := by decide

theorem wit_NoTransactionIsRefused : State.reset.txn = none := by decide

theorem wit_DecodeOfEncodeIsExpansion : (Instr.enc64 0xFFFFFFFFFFFFFFFF).wellFormed = true := by decide

theorem wit_EncodeOfDecodeRestoresWord :
    decode 0x6FFFFFFFFFFFFC140 = .ok (.dec32 0xC140) ∧ decode 0x8ABCDEF0140490FDB = .ok (.enc32 0x40490FDB) ∧
    decode 0x9400921FB54442D18 = .ok (.enc64 0x400921FB54442D18) := by decide

/-- One pair of words for each operand width, at the last index of width 16, at 8 and at 9. -/
theorem wit_IgnoredDinBitsDoNotMatter :
    [(0x7FFFFFFFFFFFFC140#68, 0x7000000000000C140#68, 16), (0x8FFFFFFFF40490FDB#68, 0x80000000040490FDB#68, 32),
      (0x9400921FB54442D18#68, 0x9400921FB54442D18#68, 64)].all (fun p : TxnWord × TxnWord × Nat =>
      p.1.extractLsb' 64 4 == p.2.1.extractLsb' 64 4 &&
      p.2.2 == (if (p.1.extractLsb' 64 4).toNat ≤ 7 then 16 else if (p.1.extractLsb' 64 4).toNat = 8 then 32 else 64) &&
      (p.1.extractLsb' 0 64).toNat % 2 ^ p.2.2 == (p.2.1.extractLsb' 0 64).toNat % 2 ^ p.2.2 &&
      (takenOf (step (State.reset.present p.1))).isSome) = true := by decide

theorem wit_TableRowSelectsItsOperation :
    (∃ r ∈ formatTRows, r.selects 0x94009000000000000 = true) ∧ (∃ r ∈ pseudoRows, r.selects 0x0000000000000FFFF = true) := by
  decide

theorem wit_OutputPortsFollowInputPorts :
    (State.reset.driveFx 0xFFFF).fxW = some 0xFFFF ∧ (State.reset.driveDec 0).decW = some 0 ∧
    (State.reset.driveEnc32 0x7F800000).encF32 = some 0x7F800000 ∧ (State.reset.driveEnc64 0).encF64 = some 0 ∧
    State.reset.fxW = none ∧ State.reset.decW = none ∧ State.reset.encF32 = none ∧ State.reset.encF64 = none := by decide

theorem wit_NotFiniteOperandFails :
    (0xFFC00001#32).extractLsb' 23 8 = 0xFF#8 ∧ (0x7FF0000000000000#64).extractLsb' 52 11 = 0x7FF#11 := by decide

/-- `-2^-65` is inside the dead zone and finite, in both lanes. -/
theorem wit_DeadZoneNarrowsToZero :
    val32 0x9F000000 = some (-1 / 2 ^ 65) ∧ val64 0xBBE0000000000000 = some (-1 / 2 ^ 65) ∧
    val16 0x8000 < -1 / 2 ^ 65 ∧ (-1 / 2 ^ 65 : ℚ) < val16 0x0001 := by
  rw [val16_8000, val16_0001]
  exact ⟨val32_9F000000, val64_BBE0000000000000, by norm_num, by norm_num⟩

/-- `2^64`, finite and just out of range, in both lanes. -/
theorem wit_OutOfRangeOperandFails :
    val32 0x5F800000 = some (2 ^ 64) ∧ val64 0x43F0000000000000 = some (2 ^ 64) ∧ (511 * 2 ^ 55 : ℚ) < |2 ^ 64| := 
  ⟨val32_5F800000, val64_43F0000000000000, by norm_num⟩

/-- Each of R76's five cases at a boundary of its range. -/
theorem wit_Enc32FollowsItsFiveCases :
    (0x7F800000#32).toNat / 2 ^ 23 % 2 ^ 8 = 0xFF ∧
    ((0x1F807FFF#32).toNat / 2 ^ 31 = 0 ∧ (0x1F807FFF#32).toNat % 2 ^ 31 < 0x1F808000) ∧
    ((0x9F7FFFFF#32).toNat / 2 ^ 31 = 1 ∧ (0x9F7FFFFF#32).toNat % 2 ^ 31 < 0x1F800000) ∧
    0x5F7F8000 < (0xDF7F8001#32).toNat % 2 ^ 31 ∧
    ((if (0x9F800000#32).toNat / 2 ^ 31 = 0 then 0x1F808000 else 0x1F800000) ≤ (0x9F800000#32).toNat % 2 ^ 31 ∧
      (0x9F800000#32).toNat % 2 ^ 31 ≤ 0x5F7F8000) := by decide

/-- Each of R77's five cases at a boundary of its range. -/
theorem wit_Enc64FollowsItsFiveCases :
    (0x7FF0000000000000#64).toNat / 2 ^ 52 % 2 ^ 11 = 0x7FF ∧
    ((0x3BF00FFFFFFFFFFF#64).toNat / 2 ^ 63 = 0 ∧ (0x3BF00FFFFFFFFFFF#64).toNat % 2 ^ 63 < 0x3BF0100000000000) ∧
    ((0xBBEFFFFFFFFFFFFF#64).toNat / 2 ^ 63 = 1 ∧ (0xBBEFFFFFFFFFFFFF#64).toNat % 2 ^ 63 < 0x3BF0000000000000) ∧
    0x43EFF00000000000 < (0xC3EFF00000000001#64).toNat % 2 ^ 63 ∧
    ((if (0x43EFF00000000000#64).toNat / 2 ^ 63 = 0 then 0x3BF0100000000000 else 0x3BF0000000000000) ≤
      (0x43EFF00000000000#64).toNat % 2 ^ 63 ∧ (0x43EFF00000000000#64).toNat % 2 ^ 63 ≤ 0x43EFF00000000000) := by decide

theorem wit_IncrementStaysBelowTheSign :
    inRange32 0x9F800000 = true ∧ inRange32 0x5F7F8000 = true ∧ inRange64 0x3BF0100000000000 = true ∧
    inRange64 0xC3EFF00000000000 = true := by decide

/-- `3 = 2^1 (1 + 1/2)`, in range in both lanes. -/
theorem wit_RoundedWordFollowsMantissaFormula :
    (|3| : ℚ) = (2 : ℚ) ^ (1 : ℤ) * (1 + 1 / 2) ∧ (0 : ℚ) ≤ 1 / 2 ∧ (1 / 2 : ℚ) < 1 ∧
    inRange32 0x40400000 = true ∧ val32 0x40400000 = some 3 ∧ enc32 0x40400000 = some 0x4180 ∧
    inRange64 0x4008000000000000 = true ∧ val64 0x4008000000000000 = some 3 ∧ enc64 0x4008000000000000 = some 0x4180 := 
  ⟨by norm_num, by norm_num, by norm_num, by decide, val32_40400000, by decide, by decide, val64_4008000000000000, by decide⟩

/-- The tie `1 + 2^-9` (E20): 0x4000 is at the same distance as the word 0x4001 the lane gives. -/
theorem wit_NarrowingRoundsToNearestTiesAway :
    inRange32 0x3F804000 = true ∧ val32 0x3F804000 = some (513 / 512) ∧ enc32 0x3F804000 = some 0x4001 ∧
    |val16 0x4000 - 513 / 512| = |val16 0x4001 - 513 / 512| ∧ (2 : ℚ) ^ (0 : ℤ) ≤ |513 / 512| ∧
    (|513 / 512| : ℚ) < (2 : ℚ) ^ (0 + 1 : ℤ) := by
  rw [val16_4000, val16_4001]
  refine ⟨by decide, val32_3F804000, by decide, ?_, by norm_num, by norm_num⟩
  norm_num [abs_of_pos, abs_of_neg]

/-- `+2^-64` (the first band), `-2^-64 * 1023/1024` (the second) and `2^63 * 2045/1024` (the third). -/
theorem wit_StepOrderOverridesRounding :
    (val32 0x1F800000 = some (1 / 2 ^ 64) ∧ (2 : ℚ) ^ (-64 : ℤ) * 257 / 512 < 1 / 2 ^ 64 ∧
      (1 / 2 ^ 64 : ℚ) < (2 : ℚ) ^ (-64 : ℤ) * 257 / 256) ∧
    (val32 0x9F7FC000 = some (-1023 / 2 ^ 74) ∧ (2 : ℚ) ^ (-64 : ℤ) * 1023 / 1024 ≤ -(-1023 / 2 ^ 74) ∧
      -(-1023 / 2 ^ 74) < (2 : ℚ) ^ (-64 : ℤ)) ∧
    (val32 0x5F7FA000 = some (2 ^ 53 * 2045) ∧ val16 0x7FFF < |2 ^ 53 * 2045| ∧
      (|2 ^ 53 * 2045| : ℚ) < 2 ^ 63 * 1023 / 512) := by
  rw [val16_7FFF]
  exact ⟨⟨val32_1F800000, by norm_num, by norm_num⟩, ⟨val32_9F7FC000, by norm_num, by norm_num⟩,
    ⟨val32_5F7FA000, by norm_num, by norm_num⟩⟩

/-- The same three bands in the 64-bit lane. -/
theorem wit_StepOrderOverridesRounding64 :
    val64 0x3BF0000000000000 = some (1 / 2 ^ 64) ∧ val64 0xBBEFF80000000000 = some (-1023 / 2 ^ 74) ∧
    val64 0x43EFF40000000000 = some (2 ^ 53 * 2045) := 
  ⟨val64_3BF0000000000000, val64_BBEFF80000000000, val64_43EFF40000000000⟩

theorem wit_RepresentableValueNarrowsExactly :
    val32 0xC0200000 = some (val16 0xC140) ∧ val64 0xC004000000000000 = some (val16 0xC140) := by
  rw [val16_C140]; exact ⟨val32_C0200000, val64_C004000000000000⟩

theorem wit_EncoderPortsShowTheOutcome :
    enc32 0x3F800000 = some 0x4000 ∧ enc32 0x7F800000 = none ∧ enc64 0 = some 0 ∧ enc64 0x7FF8000000000000 = none := by
  decide

theorem wit_OperandClassesHaveTheirMagnitudes :
    deadZone32 0x9F7FFFFF = true ∧ inRange32 0x1F808000 = true ∧ outOfRange32 0x7F7FFFFF = true ∧
    notFinite32 0x7F800000 = true ∧ deadZone64 0x3BF00FFFFFFFFFFF = true ∧ inRange64 0xBBF0000000000000 = true ∧
    outOfRange64 0x43EFF00000000001 = true ∧ notFinite64 0xFFFFFFFFFFFFFFFF = true := by decide

/-- Equal finite values, and two patterns that are not finite. -/
theorem wit_LanesAgreeOnEqualValues :
    val32 0x40400000 = val64 0x4008000000000000 ∧ val32 0x7FC00000 = val64 0xFFF0000000000000 := by
  rw [val32_40400000, val64_4008000000000000, val32_of_notFinite (by decide), val64_of_notFinite (by decide)]; exact ⟨rfl, rfl⟩

theorem wit_NarrowingIsMonotone :
    val32 0xC0400000 = some (-3) ∧ val32 0x40400000 = some 3 ∧ (-3 : ℚ) ≤ 3 ∧ enc32 0xC0400000 = some 0xC180 ∧
    enc32 0x40400000 = some 0x4180 ∧ val64 0xC008000000000000 = some (-3) ∧ val64 0x4008000000000000 = some 3 ∧
    enc64 0xC008000000000000 = some 0xC180 ∧ enc64 0x4008000000000000 = some 0x4180 := 
  ⟨val32_C0400000, val32_40400000, by norm_num, by decide, by decide, val64_C008000000000000, val64_4008000000000000,
    by decide, by decide⟩

theorem wit_OnlyNarrowingFails :
    (∀ b, Instr.dec64 0x8000 ≠ .enc32 b) ∧ (∀ b, Instr.dec64 0x8000 ≠ .enc64 b) ∧
    takenOf (exec (.enc32 0x7F800000) .reset) = fail := 
  ⟨fun _ h => (nomatch h), fun _ h => (nomatch h), by decide⟩

theorem wit_FailureLeavesNextOperationUnaffected :
    ∃ t, exec (.enc64 0x7FF0000000000000) .reset = .next t ∧ t.taken = some .conversionFailure := ⟨_, rfl, by decide⟩

theorem wit_StepOutcomeDependsOnTransactionAlone :
    (presenting 0x800000000FF800000).txn = ((presenting 0x800000000FF800000).driveFx 0x1234).txn ∧
    ∃ t, step (presenting 0x800000000FF800000) = .next t := ⟨by decide, _, rfl⟩

theorem wit_RepeatedStepChangesNothing : ∃ t, step (presenting 0x9C004000000000000) = .next t := ⟨_, rfl⟩

theorem wit_ExtractorOperationsFrame :
    (∀ w, Instr.constMax ≠ .dec32 w) ∧ (∀ w, Instr.constMax ≠ .dec64 w) ∧ (∀ b, Instr.constMax ≠ .enc32 b) ∧
    (∀ b, Instr.constMax ≠ .enc64 b) ∧ ∃ t, exec .constMax (State.reset.driveDec 1) = .next t := 
  ⟨fun _ h => (nomatch h), fun _ h => (nomatch h), fun _ h => (nomatch h), fun _ h => (nomatch h), _, rfl⟩

theorem wit_DecoderOperationsFrame : ∃ t, exec (.dec32 0x8000) (State.reset.driveEnc32 0x7F800000) = .next t := ⟨_, rfl⟩

theorem wit_EncoderOperationsFrame :
    (∃ t, exec (.enc32 0x7F800000) (State.reset.driveEnc64 0) = .next t) ∧
    (∃ t, exec (.enc64 0) (State.reset.driveEnc32 0) = .next t) := ⟨⟨_, rfl⟩, ⟨_, rfl⟩⟩

/-- A state that has taken a failure, whose 32-bit lane shows it, and that steps. -/
theorem wit_OutcomeOnPortsKeptByStep :
    (stateOf (step (presenting 0x800000000FF800000))).OutcomeOnPorts ∧
    (stateOf (step (presenting 0x800000000FF800000))).taken = some .conversionFailure ∧
    ∃ t, step (stateOf (step (presenting 0x800000000FF800000))) = .next t :=
  ⟨fun _ h => (by cases h; decide), by decide, _, rfl⟩

theorem wit_StepCompletesExactlyWhenReady :
    (presenting 0x9FFFFFFFFFFFFFFFF).ready = true ∧ (presenting 0xA0000000000000000).ready = false ∧
    State.reset.ready = false := by decide

theorem wit_HeldTransactionNeverStops : (presenting 0x8000000007F800000).ready = true := by decide

theorem wit_F16ValueHasItsIntegerForm : (0x8000#16) ≠ 0x0000#16 := by decide

theorem wit_F16ValuesAreDistinct : val16 0x4000 = 1 ∧ val16 0xC000 = -1 := ⟨val16_4000, val16_C000⟩

theorem wit_F16WordsAreOrderedByValue :
    (0x7FFF#16).getLsbD 15 = false ∧ (0x0001#16).getLsbD 15 = false ∧ (0x0001#16) ≠ 0x0000#16 ∧
    (0x8000#16).getLsbD 15 = true ∧ (0xFFFF#16).getLsbD 15 = true := by decide

/-- A subnormal, a normal and their negatives, in both lanes. -/
theorem wit_WidePatternsAreOrderedByMagnitude :
    (val32 0x00000001).isSome = true ∧ (val32 0x3F800000).isSome = true ∧ (0x00000001#32).getLsbD 31 = false ∧
    (0x3F800000#32).getLsbD 31 = false ∧ (val32 0x80000001).isSome = true ∧ (0x80000001#32).getLsbD 31 = true ∧
    (val64 0x0000000000000001).isSome = true ∧ (0x0000000000000001#64).getLsbD 63 = false ∧
    (val64 0x8000000000000001).isSome = true ∧ (0x8000000000000001#64).getLsbD 63 = true := by
  simp only [val32_isSome, val64_isSome]; decide

/-- Each class of R40 at its smallest magnitude. -/
theorem wit_WideClassesFollowTheirFields :
    [0x80000000, 0x00000001, 0x00800000, 0x7F800000, 0x7F800001].map class32 =
      [.zero, .subnormal, .normal, .infinity, .nan] ∧
    [0x8000000000000000, 0x1, 0x0010000000000000, 0x7FF0000000000000, 0x7FF0000000000001].map class64 =
      [.zero, .subnormal, .normal, .infinity, .nan] := by decide

theorem wit_NamedConstantsHaveTheirValues : 0 < val16 0x4000 ∧ val16 0xC000 < 0 := by
  rw [val16_4000, val16_C000]; norm_num

theorem wit_DecoderImageIsExactlyThesePatterns : dec32 0xC140 = 0xC0200000 ∧ dec64 0xC140 = 0xC004000000000000 := by decide

theorem wit_FieldsRecomposeTheWord :
    signBit 0xC140 = signBit 0xC140 ∧ biasedExponent 0xC140 = biasedExponent 0xC140 ∧
    mantissaBits 0xC140 = mantissaBits 0xC140 := by decide

end Sys2Proof.Tests
end

section
/-! Proofs of the encoding statements of 30_encoding.md: what the words of the three formats denote (R31 to R37, R42, R49),
their classes (R40), and the pseudo-operations (R47). -/

namespace Sys2Proof.Machine

/-! ## Pseudo-operations (R47) -/

/-- An operation and its expansion have the same effect in every state. -/
theorem exec_expand (i : Instr) (s : State) : exec i.expand s = exec i s := by cases i <;> rfl

/-- An operation and its expansion have the same transaction word. -/
theorem encode_expand (i : Instr) : encode i.expand = encode i := by cases i <;> rfl

/-- `FROM_BITS w` completes with `w` on `fx_w` and as the outcome (R50). -/
theorem exec_fromBits_completes (w : F16) (s : State) :
    ∃ t, exec (.fromBits w) s = .next t ∧ t.taken = some (.result (w.setWidth 64)) ∧ t.fxW = some w :=
  ⟨(s.driveFx w).returns (fromBits w), rfl, by simp [fromBits, doutOf], by simp⟩

/-- An operation that expands to `FROM_BITS w` completes with `w` on `fx_w` and as the outcome. -/
theorem exec_completes_of_expand {i : Instr} {w : F16} (hi : i.expand = .fromBits w) (s : State) :
    ∃ t, exec i s = .next t ∧ t.taken = some (.result (w.setWidth 64)) ∧ t.fxW = some w := by
  rw [← exec_expand, hi]; exact exec_fromBits_completes w s

/-- Settles O57: each literal is read off the expansion of its pseudo-operation. -/
theorem pseudoOperationsAreFromBitsOfLiterals : Obligations.PseudoOperationsAreFromBitsOfLiterals := by
  intro s
  exact ⟨exec_completes_of_expand (i := .constZero) rfl s, exec_completes_of_expand (i := .constMax) rfl s,
    exec_completes_of_expand (i := .constMin) rfl s, exec_completes_of_expand (i := .constMinPositive) rfl s,
    exec_completes_of_expand (i := .constMaxNegative) rfl s,
    fun i => ⟨(exec_expand i s).symm, (encode_expand i).symm⟩⟩

/-! ## Classes of wide patterns (R40) -/

/-- The class table of R40 for binary32, as disjoint ranges of the magnitude field. -/
theorem class32_iff (b : Bin32) :
    (class32 b = .zero ↔ b.toNat % 2 ^ 31 = 0) ∧
    (class32 b = .subnormal ↔ 0 < b.toNat % 2 ^ 31 ∧ b.toNat % 2 ^ 31 < 2 ^ 23) ∧
    (class32 b = .normal ↔ 2 ^ 23 ≤ b.toNat % 2 ^ 31 ∧ b.toNat % 2 ^ 31 < 0x7F800000) ∧
    (class32 b = .infinity ↔ b.toNat % 2 ^ 31 = 0x7F800000) ∧
    (class32 b = .nan ↔ 0x7F800000 < b.toNat % 2 ^ 31) := by
  simp only [class32, ← BitVec.toNat_inj, expField32_toNat, manField32_toNat, BitVec.toNat_ofNat]
  split
  · split
    · simp only [reduceCtorEq, true_iff, false_iff]; omega
    · simp only [reduceCtorEq, true_iff, false_iff]; omega
  split
  · split
    · simp only [reduceCtorEq, true_iff, false_iff]; omega
    · simp only [reduceCtorEq, true_iff, false_iff]; omega
  · simp only [reduceCtorEq, true_iff, false_iff]; omega

/-- The class table of R40 for binary64, as disjoint ranges of the magnitude field. -/
theorem class64_iff (b : Bin64) :
    (class64 b = .zero ↔ b.toNat % 2 ^ 63 = 0) ∧
    (class64 b = .subnormal ↔ 0 < b.toNat % 2 ^ 63 ∧ b.toNat % 2 ^ 63 < 2 ^ 52) ∧
    (class64 b = .normal ↔ 2 ^ 52 ≤ b.toNat % 2 ^ 63 ∧ b.toNat % 2 ^ 63 < 0x7FF0000000000000) ∧
    (class64 b = .infinity ↔ b.toNat % 2 ^ 63 = 0x7FF0000000000000) ∧
    (class64 b = .nan ↔ 0x7FF0000000000000 < b.toNat % 2 ^ 63) := by
  simp only [class64, ← BitVec.toNat_inj, expField64_toNat, manField64_toNat, BitVec.toNat_ofNat]
  split
  · split
    · simp only [reduceCtorEq, true_iff, false_iff]; omega
    · simp only [reduceCtorEq, true_iff, false_iff]; omega
  split
  · split
    · simp only [reduceCtorEq, true_iff, false_iff]; omega
    · simp only [reduceCtorEq, true_iff, false_iff]; omega
  · simp only [reduceCtorEq, true_iff, false_iff]; omega

theorem val32_eq_none_iff (b : Bin32) : val32 b = none ↔ 0x7F800000 ≤ b.toNat % 2 ^ 31 := by
  rw [← Option.isNone_iff_eq_none, ← Option.not_isSome, val32_isSome, Bool.not_not, notFinite32_iff]; omega

theorem val64_eq_none_iff (b : Bin64) : val64 b = none ↔ 0x7FF0000000000000 ≤ b.toNat % 2 ^ 63 := by
  rw [← Option.isNone_iff_eq_none, ← Option.not_isSome, val64_isSome, Bool.not_not, notFinite64_iff]; omega

/-- Settles O55: a pattern has no value from infinity's magnitude up, where the class table has infinity and NaN. -/
theorem wideClassesFollowTheirFields : Obligations.WideClassesFollowTheirFields := by
  constructor
  · intro b
    obtain ⟨hz, hs, hn, hi, hx⟩ := class32_iff b
    exact ⟨hz, hs, hn, hi, hx, by rw [val32_eq_none_iff, hi, hx]; omega⟩
  · intro b
    obtain ⟨hz, hs, hn, hi, hx⟩ := class64_iff b
    exact ⟨hz, hs, hn, hi, hx, by rw [val64_eq_none_iff, hi, hx]; omega⟩

/-! ## Magnitudes with the implicit leading 1 -/

/-- The number a magnitude field `M` with `mw` mantissa bits denotes when the leading 1 is implicit, in integer form:
`(2^mw + f) * 2^(e - bias - mw)`. -/
def normalMagnitude (mw : Nat) (bias : Int) (M : Nat) : ℚ :=
  (2 ^ mw + (M % 2 ^ mw : ℕ)) * (2 : ℚ) ^ (((M / 2 ^ mw : ℕ) : ℤ) - bias - mw)

/-- The integer form and the form with a fraction are the same number. -/
theorem normalMagnitude_eq_fraction (mw : Nat) (bias : Int) (M : Nat) :
    normalMagnitude mw bias M =
      (2 : ℚ) ^ (((M / 2 ^ mw : ℕ) : ℤ) - bias) * (1 + ((M % 2 ^ mw : ℕ) : ℚ) / 2 ^ mw) := by
  rw [normalMagnitude, zpow_sub₀ (by norm_num) _ (mw : ℤ), zpow_natCast]; field_simp

theorem normalMagnitude_pos (mw : Nat) (bias : Int) (M : Nat) : 0 < normalMagnitude mw bias M := by
  unfold normalMagnitude; positivity

/-- The carry out of the mantissa doubles the scale, so the order of magnitude fields is that of their numbers. -/
theorem normalMagnitude_strictMono (mw : Nat) (bias : Int) : StrictMono (normalMagnitude mw bias) := by
  refine strictMono_nat_of_lt_succ fun M => ?_
  by_cases hd : 2 ^ mw ∣ M + 1
  · have hf : ((M % 2 ^ mw : ℕ) : ℚ) < 2 ^ mw := by exact_mod_cast Nat.mod_lt M (by positivity)
    have hexp : (((M / 2 ^ mw + 1 : ℕ) : ℤ) - bias - mw) = (((M / 2 ^ mw : ℕ) : ℤ) - bias - mw) + 1 := by push_cast; ring
    rw [normalMagnitude, normalMagnitude, Nat.succ_div_of_dvd hd, Nat.mod_eq_zero_of_dvd hd, hexp,
      zpow_add_one₀ (by norm_num), Nat.cast_zero, add_zero]
    calc _ < (2 ^ mw + 2 ^ mw) * (2 : ℚ) ^ (((M / 2 ^ mw : ℕ) : ℤ) - bias - mw) := by gcongr
      _ = _ := by ring
  · have hf : (M + 1) % 2 ^ mw = M % 2 ^ mw + 1 := by
      have h1 := Nat.div_add_mod (M + 1) (2 ^ mw)
      have h2 := Nat.div_add_mod M (2 ^ mw)
      rw [Nat.succ_div_of_not_dvd hd] at h1
      omega
    rw [normalMagnitude, normalMagnitude, Nat.succ_div_of_not_dvd hd, hf]
    gcongr
    exact Nat.lt_succ_self _

/-! ## Values of F16 words (R31, R49) -/

/-- The exponent and mantissa fields of a 16-bit word stand below its sign bit (R30). -/
theorem mag16_div (n : Nat) : n % 2 ^ 15 / 2 ^ 8 = n / 256 % 128 := by omega
theorem mag16_mod (n : Nat) : n % 2 ^ 15 % 2 ^ 8 = n % 256 := by omega

/-- Every nonzero word has the implicit leading 1 (R31). -/
theorem val16_eq_signed_normalMagnitude {w : F16} (hz : w ≠ 0x0000#16) :
    val16 w = signFactor (sign16 w) * normalMagnitude 8 64 (w.toNat % 2 ^ 15) := by
  rw [val16_of_fields _ _ _ hz rfl (expField16_toNat w) (manField16_toNat w), normalMagnitude_eq_fraction,
    mag16_div, mag16_mod]
  norm_num [mul_assoc]

theorem signFactor_sign16 (w : F16) : signFactor (sign16 w) = (-1) ^ (w.toNat / 32768) := by
  rw [sign16_eq]
  by_cases h : 32768 ≤ w.toNat
  · rw [show w.toNat / 32768 = 1 by omega]; simp [h]
  · rw [show w.toNat / 32768 = 0 by omega]; simp [h]

/-- Settles O51: the magnitude in its integer form, and the sign as a power of -1. -/
theorem f16ValueHasItsIntegerForm : Obligations.F16ValueHasItsIntegerForm := by
  refine ⟨val16_zero, fun w hz => ?_⟩
  rw [val16_eq_signed_normalMagnitude hz, signFactor_sign16, normalMagnitude, mag16_div, mag16_mod,
    show (((w.toNat / 256 % 128 : ℕ) : ℤ) - 64 - (8 : ℕ)) = ((w.toNat / 256 % 128 : ℕ) : ℤ) - 72 by push_cast; ring]
  norm_num [mul_assoc]

/-- A nonzero word of sign 0 denotes the number of its integer's fields. -/
theorem val16_of_sign_false {w : F16} (hs : sign16 w = false) (hz : w ≠ 0x0000#16) :
    val16 w = normalMagnitude 8 64 w.toNat := by
  have hlt : w.toNat < 32768 := by simpa [sign16_eq] using hs
  rw [val16_eq_signed_normalMagnitude hz, hs, signFactor_false, one_mul,
    show w.toNat % 2 ^ 15 = w.toNat from Nat.mod_eq_of_lt hlt]

/-- A word of sign 1 is never the zero word, so its magnitude always has the implicit 1. -/
theorem val16_of_sign_true {w : F16} (hs : sign16 w = true) :
    val16 w = -normalMagnitude 8 64 (w.toNat - 2 ^ 15) := by
  have hge : 32768 ≤ w.toNat := by simpa [sign16_eq] using hs
  have hz : w ≠ 0x0000#16 := by rintro rfl; simp at hge
  rw [val16_eq_signed_normalMagnitude hz, hs, signFactor_true, show w.toNat % 2 ^ 15 = w.toNat - 2 ^ 15 by omega]; ring

theorem val16_pos_of_sign_false {w : F16} (hs : sign16 w = false) (hz : w ≠ 0x0000#16) : 0 < val16 w := by
  rw [val16_of_sign_false hs hz]; exact normalMagnitude_pos ..

theorem val16_nonneg_of_sign_false {w : F16} (hs : sign16 w = false) : 0 ≤ val16 w := by
  by_cases hz : w = 0x0000#16
  · rw [hz, val16_zero]
  · exact (val16_pos_of_sign_false hs hz).le

theorem val16_neg_of_sign_true {w : F16} (hs : sign16 w = true) : val16 w < 0 := by
  rw [val16_of_sign_true hs]; exact neg_neg_of_pos (normalMagnitude_pos ..)

/-- Words of sign 0 are ordered as their integers; the zero word, which has no implicit 1, is below the others (R49). -/
theorem val16_lt_iff_of_sign_false {a b : F16} (ha : sign16 a = false) (hb : sign16 b = false) :
    val16 a < val16 b ↔ a.toNat < b.toNat := by
  by_cases hbz : b = 0x0000#16
  · simpa [hbz] using val16_nonneg_of_sign_false ha
  by_cases haz : a = 0x0000#16
  · have hpos : 0 < b.toNat := Nat.pos_of_ne_zero fun h => hbz (BitVec.eq_of_toNat_eq h)
    simpa [haz, hpos] using val16_pos_of_sign_false hb hbz
  · rw [val16_of_sign_false ha haz, val16_of_sign_false hb hbz, (normalMagnitude_strictMono 8 64).lt_iff_lt]

/-- Words of sign 1 are ordered against their integers (R49). -/
theorem val16_lt_iff_of_sign_true {a b : F16} (ha : sign16 a = true) (hb : sign16 b = true) :
    val16 a < val16 b ↔ b.toNat < a.toNat := by
  have hage : 32768 ≤ a.toNat := by simpa [sign16_eq] using ha
  have hbge : 32768 ≤ b.toNat := by simpa [sign16_eq] using hb
  rw [val16_of_sign_true ha, val16_of_sign_true hb, neg_lt_neg_iff, (normalMagnitude_strictMono 8 64).lt_iff_lt]
  omega

theorem val16_lt_of_sign_true_of_sign_false {a b : F16} (ha : sign16 a = true) (hb : sign16 b = false) :
    val16 a < val16 b := (val16_neg_of_sign_true ha).trans_le (val16_nonneg_of_sign_false hb)

/-- Settles O53: magnitudes are strictly monotone, and sign 1 negates them. -/
theorem f16WordsAreOrderedByValue : Obligations.F16WordsAreOrderedByValue :=
  ⟨fun _ _ => val16_lt_iff_of_sign_false, fun _ _ => val16_lt_iff_of_sign_true,
    fun _ _ ha hb => ⟨val16_neg_of_sign_true ha, val16_lt_of_sign_true_of_sign_false ha hb⟩,
    val16_zero, fun _ => val16_pos_of_sign_false⟩

/-! ## The named constants (R33 to R37) -/

theorem val16_f16Max : val16 f16Max = 511 * 2 ^ 55 := by
  rw [val16_of_fields false 127 255 (by decide) (by decide) (by decide) (by decide)]; norm_num

theorem val16_f16Min : val16 f16Min = -(511 * 2 ^ 55) := by
  rw [val16_of_fields true 127 255 (by decide) (by decide) (by decide) (by decide)]; norm_num

theorem val16_f16MinPositive : val16 f16MinPositive = 257 * (2 : ℚ) ^ (-72 : ℤ) := by
  rw [val16_of_fields false 0 1 (by decide) (by decide) (by decide) (by decide)]; norm_num

theorem val16_f16MaxNegative : val16 f16MaxNegative = -(2 : ℚ) ^ (-64 : ℤ) := by
  rw [val16_of_fields true 0 0 (by decide) (by decide) (by decide) (by decide)]; norm_num

/-- `MAX` is the largest value (R34). -/
theorem val16_le_f16Max (w : F16) : val16 w ≤ val16 f16Max := by
  cases hs : sign16 w with
  | true => exact (val16_lt_of_sign_true_of_sign_false hs (by decide)).le
  | false =>
    have hlt : w.toNat < 32768 := by simpa [sign16_eq] using hs
    rw [← not_lt, val16_lt_iff_of_sign_false (by decide) hs]
    simp only [f16Max, BitVec.toNat_ofNat]; omega

/-- `MIN` is the most negative value (R35). -/
theorem f16Min_le_val16 (w : F16) : val16 f16Min ≤ val16 w := by
  cases hs : sign16 w with
  | false => exact (val16_lt_of_sign_true_of_sign_false (by decide) hs).le
  | true =>
    rw [← not_lt, val16_lt_iff_of_sign_true hs (by decide)]
    simp only [f16Min, BitVec.toNat_ofNat]; omega

/-- `MIN_POSITIVE` is the smallest positive value (R36). -/
theorem f16MinPositive_le_of_pos {w : F16} (h : 0 < val16 w) : val16 f16MinPositive ≤ val16 w := by
  cases hs : sign16 w with
  | true => exact absurd h (val16_neg_of_sign_true hs).le.not_gt
  | false =>
    have hne : w.toNat ≠ 0 := fun h0 => by
      rw [show w = 0x0000#16 from BitVec.eq_of_toNat_eq h0, val16_zero] at h; exact lt_irrefl 0 h
    rw [← not_lt, val16_lt_iff_of_sign_false hs (by decide)]
    simp only [f16MinPositive, BitVec.toNat_ofNat]; omega

/-- `MAX_NEGATIVE` is the negative value nearest to zero (R37). -/
theorem le_f16MaxNegative_of_neg {w : F16} (h : val16 w < 0) : val16 w ≤ val16 f16MaxNegative := by
  cases hs : sign16 w with
  | false => exact absurd h (val16_nonneg_of_sign_false hs).not_gt
  | true =>
    have hge : 32768 ≤ w.toNat := by simpa [sign16_eq] using hs
    rw [← not_lt, val16_lt_iff_of_sign_true (by decide) hs]
    simp only [f16MaxNegative, BitVec.toNat_ofNat]; omega

/-- The dead zone's bounds are not opposite: `MAX_NEGATIVE` is nearer to zero than `MIN_POSITIVE` (R36, R37). -/
theorem abs_f16MaxNegative_lt_f16MinPositive : |val16 f16MaxNegative| < val16 f16MinPositive := by
  rw [val16_f16MaxNegative, val16_f16MinPositive, abs_neg, abs_of_pos (by positivity)]; norm_num

/-- Settles O56: the patterns are computed, the bounds follow from the order of words. -/
theorem namedConstantsHaveTheirValues : Obligations.NamedConstantsHaveTheirValues :=
  ⟨⟨rfl, val16_zero, by decide, by decide, by decide⟩,
    ⟨rfl, by rw [val16_f16Max]; norm_num, val16_f16Max, by decide, by decide⟩,
    ⟨rfl, by rw [val16_f16Min, val16_f16Max], by decide, by decide⟩,
    ⟨rfl, val16_f16MinPositive, by decide, by decide⟩,
    ⟨rfl, val16_f16MaxNegative, by decide, by decide⟩,
    fun w => ⟨f16Min_le_val16 w, val16_le_f16Max w⟩,
    fun _ => f16MinPositive_le_of_pos, fun _ => le_f16MaxNegative_of_neg, abs_f16MaxNegative_lt_f16MinPositive⟩

/-! ## The order of wide patterns (R42) -/

/-- The number of the magnitude field `M` of a finite wide pattern: that of the pattern of sign 0 (R41). -/
def wideMagnitude (mw : Nat) (bias : Int) (M : Nat) : ℚ := valWide mw bias false (M / 2 ^ mw) (M % 2 ^ mw)

/-- A finite pattern's value is its magnitude with the sign's factor. -/
theorem valWide_eq_signFactor_mul (mw : Nat) (bias : Int) (s : Bool) (e f : Nat) :
    valWide mw bias s e f = signFactor s * valWide mw bias false e f := by
  by_cases he : e = 0
  · rw [he, valWide_subnormal, valWide_subnormal, signFactor_false]; ring
  · rw [valWide_normal _ _ _ _ he, valWide_normal _ _ _ _ he, signFactor_false]; ring

/-- Zero and the subnormals are multiples of one unit, and so is the smallest normal. -/
theorem wideMagnitude_of_le (mw : Nat) (bias : Int) {M : Nat} (hM : M ≤ 2 ^ mw) :
    wideMagnitude mw bias M = M * (2 : ℚ) ^ (1 - bias - mw) := by
  rw [wideMagnitude, zpow_sub₀ (by norm_num) _ (mw : ℤ), zpow_natCast]
  obtain hlt | rfl := hM.lt_or_eq
  · rw [Nat.div_eq_of_lt hlt, Nat.mod_eq_of_lt hlt, valWide_subnormal, signFactor_false]; ring
  · rw [Nat.div_self (by positivity), Nat.mod_self, valWide_normal _ _ _ _ one_ne_zero, signFactor_false]
    push_cast; field_simp; ring

/-- Normal magnitudes have the implicit leading 1. -/
theorem wideMagnitude_of_ge (mw : Nat) (bias : Int) {M : Nat} (hM : 2 ^ mw ≤ M) :
    wideMagnitude mw bias M = normalMagnitude mw bias M := by
  have he : M / 2 ^ mw ≠ 0 := (Nat.div_pos hM (by positivity)).ne'
  rw [wideMagnitude, valWide_normal _ _ _ _ he, signFactor_false, one_mul, normalMagnitude_eq_fraction]

/-- Up to the smallest normal the steps are one unit each; from there on the implicit 1 gives the order. -/
theorem wideMagnitude_strictMono (mw : Nat) (bias : Int) : StrictMono (wideMagnitude mw bias) := by
  refine strictMono_nat_of_lt_succ fun M => ?_
  obtain hle | hgt := le_or_gt (M + 1) (2 ^ mw)
  · rw [wideMagnitude_of_le _ _ hle, wideMagnitude_of_le _ _ (Nat.le_of_succ_le hle)]
    have hunit : (0 : ℚ) < 2 ^ (1 - bias - mw) := by positivity
    push_cast; linarith
  · rw [wideMagnitude_of_ge _ _ (by omega), wideMagnitude_of_ge _ _ (by omega)]
    exact normalMagnitude_strictMono mw bias (Nat.lt_succ_self M)

theorem wideMagnitude_nonneg (mw : Nat) (bias : Int) (M : Nat) : 0 ≤ wideMagnitude mw bias M :=
  calc (0 : ℚ) = wideMagnitude mw bias 0 := by simp [wideMagnitude_of_le]
    _ ≤ wideMagnitude mw bias M := (wideMagnitude_strictMono mw bias).monotone (Nat.zero_le M)

theorem abs_signFactor (s : Bool) : |signFactor s| = 1 := by cases s <;> simp

/-- R42 for two signs and two magnitude fields of one format. -/
theorem signed_wideMagnitude_order (mw : Nat) (bias : Int) (s t : Bool) (M N : Nat) :
    (s = false → t = false →
      (signFactor s * wideMagnitude mw bias M < signFactor t * wideMagnitude mw bias N ↔ M < N)) ∧
    (s = true → t = true →
      (signFactor s * wideMagnitude mw bias M < signFactor t * wideMagnitude mw bias N ↔ N < M)) ∧
    (|signFactor s * wideMagnitude mw bias M| < |signFactor t * wideMagnitude mw bias N| ↔ M < N) := by
  have hlt : ∀ M N, wideMagnitude mw bias M < wideMagnitude mw bias N ↔ M < N :=
    fun _ _ => (wideMagnitude_strictMono mw bias).lt_iff_lt
  refine ⟨?_, ?_, ?_⟩
  · rintro rfl rfl; simp [hlt]
  · rintro rfl rfl; simp [hlt]
  · simp only [abs_mul, abs_signFactor, one_mul, abs_of_nonneg (wideMagnitude_nonneg mw bias _), hlt]

theorem val32_eq_signed_wideMagnitude {b : Bin32} {x : ℚ} (h : val32 b = some x) :
    x = signFactor (sign32 b) * wideMagnitude 23 127 (b.toNat % 2 ^ 31) := by
  have hf : notFinite32 b = false := by simpa [h] using val32_isSome b
  rw [val32_of_fields _ _ _ hf rfl (expField32_toNat b) (manField32_toNat b), Option.some_inj] at h
  rw [← h, valWide_eq_signFactor_mul, wideMagnitude, show b.toNat % 2 ^ 31 / 2 ^ 23 = b.toNat / 2 ^ 23 % 2 ^ 8 by omega,
    show b.toNat % 2 ^ 31 % 2 ^ 23 = b.toNat % 2 ^ 23 by omega]

theorem val64_eq_signed_wideMagnitude {b : Bin64} {x : ℚ} (h : val64 b = some x) :
    x = signFactor (sign64 b) * wideMagnitude 52 1023 (b.toNat % 2 ^ 63) := by
  have hf : notFinite64 b = false := by simpa [h] using val64_isSome b
  rw [val64_of_fields _ _ _ hf rfl (expField64_toNat b) (manField64_toNat b), Option.some_inj] at h
  rw [← h, valWide_eq_signFactor_mul, wideMagnitude, show b.toNat % 2 ^ 63 / 2 ^ 52 = b.toNat / 2 ^ 52 % 2 ^ 11 by omega,
    show b.toNat % 2 ^ 63 % 2 ^ 52 = b.toNat % 2 ^ 52 by omega]

/-- Settles O54: both formats are signed magnitudes, and magnitudes are strictly monotone. -/
theorem widePatternsAreOrderedByMagnitude : Obligations.WidePatternsAreOrderedByMagnitude := by
  constructor
  · intro a b x y ha hb
    rw [val32_eq_signed_wideMagnitude ha, val32_eq_signed_wideMagnitude hb]
    exact signed_wideMagnitude_order 23 127 (sign32 a) (sign32 b) _ _
  · intro a b x y ha hb
    rw [val64_eq_signed_wideMagnitude ha, val64_eq_signed_wideMagnitude hb]
    exact signed_wideMagnitude_order 52 1023 (sign64 a) (sign64 b) _ _

end Sys2Proof.Machine
end

section
/-! Proofs of the statements about f16_field_extractor (40_field_extractor.md R50 to R56). Each field is named by its place
in the word (a mask, R56) and by its number; the outcomes of the operations and the output ports follow. -/

namespace Sys2Proof.Machine

/-! ## The output ports while `fx_w` is driven (R15) -/

theorem State.fxBits_of_fxW {s : State} {w : F16} (h : s.fxW = some w) : s.fxBits = some (toBits w) := by
  simp [State.fxBits, h]

theorem State.fxSign_of_fxW {s : State} {w : F16} (h : s.fxW = some w) : s.fxSign = some (signBit w) := by
  simp [State.fxSign, h]

theorem State.fxBexp_of_fxW {s : State} {w : F16} (h : s.fxW = some w) : s.fxBexp = some (biasedExponent w) := by
  simp [State.fxBexp, h]

theorem State.fxExp_of_fxW {s : State} {w : F16} (h : s.fxW = some w) : s.fxExp = some (exponentWord w) := by
  simp [State.fxExp, h]

theorem State.fxMant_of_fxW {s : State} {w : F16} (h : s.fxW = some w) : s.fxMant = some (mantissaBits w) := by
  simp [State.fxMant, h]

/-- An operation that drives `fx_w` and returns `v` completes with `v` zero-extended, its operand on `fx_w` (R44). -/
theorem exec_completes_of_driveFx_returns {i : Instr} {w : F16} {n : Nat} {v : BitVec n} {s : State}
    (h : exec i s = .next ((s.driveFx w).returns v)) :
    ∃ t, exec i s = .next t ∧ t.taken = some (.result (v.setWidth 64)) ∧ t.fxW = some w :=
  ⟨_, h, by rw [State.returns_taken, doutOf], by rw [State.returns_fxW, State.driveFx_fxW]⟩

/-! ## FROM_BITS and TO_BITS (R50, R51) -/

/-- Settles O9: both functions are the identity. -/
theorem fromBitsAndToBitsReturnTheWord : Obligations.FromBitsAndToBitsReturnTheWord := by
  refine ⟨exec_fromBits_completes, fun w s => ?_, fun w => ⟨rfl, rfl, rfl, rfl⟩⟩
  obtain ⟨t, ht, htaken, hw⟩ := exec_completes_of_driveFx_returns (i := .toBits w) (s := s) rfl
  exact ⟨t, ht, htaken, hw, State.fxBits_of_fxW hw⟩

/-! ## SIGN_BIT (R52) -/

/-- The mask of R52 is one bit, so its result is that bit's word or zero. -/
theorem signBit_eq_ite (w : F16) : signBit w = if w.getLsbD 15 then 0x8000#16 else 0x0000#16 :=
  BitVec.and_twoPow w 15

theorem signBit_getLsbD_15 (w : F16) : (signBit w).getLsbD 15 = sign16 w := by
  simp [signBit, sign16]

theorem signBit_setWidth (w : F16) : (signBit w).setWidth 64 = if w.getLsbD 15 then 0x8000#64 else 0#64 := by
  rw [signBit_eq_ite]; split <;> rfl

/-- Settles O10: bit 15 stays in place. -/
theorem signBitStaysInPlace : Obligations.SignBitStaysInPlace := by
  intro w s
  obtain ⟨t, ht, htaken, hw⟩ := exec_completes_of_driveFx_returns (i := .signBit w) (s := s) rfl
  rw [signBit_setWidth] at htaken
  exact ⟨signBit_eq_ite w, signBit_getLsbD_15 w, t, ht, htaken, hw, State.fxSign_of_fxW hw⟩

/-! ## BIASED_EXPONENT (R53) -/

/-- The shift and mask of R53 read the exponent field of R30. -/
theorem biasedExponent_eq_expField16 (w : F16) : biasedExponent w = expField16 w := by
  apply BitVec.eq_of_toNat_eq; rw [biasedExponent_toNat, expField16_toNat]

theorem biasedExponent_setWidth (w : F16) : (biasedExponent w).setWidth 64 = BitVec.ofNat 64 (w.toNat / 256 % 128) := by
  rw [← biasedExponent_toNat, BitVec.ofNat_toNat]

/-- Settles O11: the mask leaves the seven bits of the field. -/
theorem biasedExponentIsTheStoredField : Obligations.BiasedExponentIsTheStoredField := by
  intro w s
  obtain ⟨t, ht, htaken, hw⟩ := exec_completes_of_driveFx_returns (i := .biasedExponent w) (s := s) rfl
  have hport := State.fxBexp_of_fxW hw
  rw [biasedExponent_setWidth] at htaken
  rw [biasedExponent_eq_expField16] at hport
  exact ⟨biasedExponent_eq_expField16 w, t, ht, htaken, hw, hport⟩

/-! ## EXPONENT (R54) -/

theorem exponent_eq_expField16_sub (w : F16) : exponent w = ((expField16 w).toNat : Int) - 64 := by
  rw [exponent_eq, expField16_toNat]

theorem exponent_mem_range (w : F16) : -64 ≤ exponent w ∧ exponent w ≤ 63 := by
  rw [exponent_eq]; omega

/-- The de-biased exponent fits into 8-bit two's complement. -/
theorem exponentWord_toInt (w : F16) : (exponentWord w).toInt = exponent w := by
  obtain ⟨hlo, hhi⟩ := exponent_mem_range w
  exact BitVec.toInt_ofInt_eq_self (by decide) (by omega) (by omega)

/-- Flipping the top bit of a 7-bit field subtracts its bias of 64. -/
theorem toInt_xor_topBit : ∀ x : BitVec 7, (x ^^^ 0x40#7).toInt = (x.toNat : Int) - 64 := by decide

/-- The port word without a subtraction: sign-extend the field with its top bit flipped. -/
theorem exponentWord_eq_signExtend (w : F16) : exponentWord w = (expField16 w ^^^ 0x40#7).signExtend 8 := by
  apply BitVec.eq_of_toInt_eq
  rw [exponentWord_toInt, exponent_eq_expField16_sub, BitVec.toInt_signExtend_of_le (by decide), toInt_xor_topBit]

/-- Settles O12: the two words of the exponent spell the same integer. -/
theorem exponentIsTheFieldLessSixtyFour : Obligations.ExponentIsTheFieldLessSixtyFour := by
  intro w s
  obtain ⟨hlo, hhi⟩ := exponent_mem_range w
  obtain ⟨t, ht, htaken, hw⟩ := exec_completes_of_driveFx_returns (i := .exponent w) (s := s) rfl
  have hport := State.fxExp_of_fxW hw
  rw [exponentWord_eq_signExtend] at htaken hport
  exact ⟨exponent_eq_expField16_sub w, ⟨hlo, hhi⟩, by omega, exponentWord_toInt w, exponentWord_eq_signExtend w,
    t, ht, htaken, hw, hport⟩

/-! ## MANTISSA_BITS (R55) -/

theorem mantissaBits_eq_setWidth (w : F16) : mantissaBits w = (manField16 w).setWidth 16 := by
  rw [← BitVec.ofNat_toNat, manField16_toNat, ← mantissaBits_toNat, BitVec.ofNat_toNat, BitVec.setWidth_eq]

theorem mantissaBits_setWidth (w : F16) : (mantissaBits w).setWidth 64 = BitVec.ofNat 64 (w.toNat % 256) := by
  rw [← mantissaBits_toNat, BitVec.ofNat_toNat]

/-- Settles O13: the low byte, the upper byte zero. -/
theorem mantissaBitsAreTheLowByte : Obligations.MantissaBitsAreTheLowByte := by
  intro w s
  obtain ⟨t, ht, htaken, hw⟩ := exec_completes_of_driveFx_returns (i := .mantissaBits w) (s := s) rfl
  rw [mantissaBits_setWidth] at htaken
  exact ⟨mantissaBits_eq_setWidth w, t, ht, htaken, hw, State.fxMant_of_fxW hw⟩

/-! ## Recomposition (R56) -/

/-- The exponent field shifted back into its place is the word under the middle one of R56's three masks. -/
theorem biasedExponent_shiftLeft_eq_and (w : F16) : (biasedExponent w).setWidth 16 <<< 8 = w &&& 0x7F00#16 := by
  have hmask : ((w >>> 8 &&& 0x7F#16).setWidth 7).setWidth 16 = w >>> 8 &&& 0x7F#16 := by
    apply BitVec.eq_of_toNat_eq
    have hlt : (w >>> 8 &&& 0x7F#16).toNat ≤ 127 := by rw [BitVec.toNat_and]; exact Nat.and_le_right
    simp only [BitVec.toNat_setWidth]; omega
  calc (biasedExponent w).setWidth 16 <<< 8
      _ = (w >>> 8 &&& 0x7F#16) <<< 8 := by rw [biasedExponent, hmask]
      _ = w &&& (BitVec.allOnes 16 <<< 8 &&& 0x7F#16 <<< 8) := by
        rw [BitVec.shiftLeft_and_distrib, BitVec.shiftLeft_ushiftRight, BitVec.and_assoc]
      _ = w &&& 0x7F00#16 := congrArg (w &&& ·) (by decide)

/-- Words under masks that share no bit share no bit. -/
theorem and_and_and_eq_zero_of_masks_disjoint {n : Nat} {m k : BitVec n} (h : m &&& k = 0#n) (x y : BitVec n) :
    x &&& m &&& (y &&& k) = 0#n :=
  calc x &&& m &&& (y &&& k) = x &&& y &&& (m &&& k) := by ac_rfl
    _ = 0#n := by rw [h, BitVec.and_zero]

/-- R56 from the biased exponent: the three masks cover the word. -/
theorem eq_or_fields_of_biasedExponent (w : F16) :
    w = signBit w ||| (biasedExponent w).setWidth 16 <<< 8 ||| mantissaBits w := by
  rw [biasedExponent_shiftLeft_eq_and, signBit, mantissaBits, ← BitVec.and_or_distrib_left, ← BitVec.and_or_distrib_left]
  exact (BitVec.and_allOnes (x := w)).symm

/-- Re-biasing the exponent gives the stored field back. -/
theorem ofInt_exponent_add_bias (w : F16) : BitVec.ofInt 16 (exponent w + 64) = (biasedExponent w).setWidth 16 := by
  rw [exponent, f16Bias, Int.sub_add_cancel, BitVec.ofInt_natCast, BitVec.ofNat_toNat]

/-- Settles O14: the fields are the word under three masks that are disjoint and cover 16 bits. -/
theorem fieldsRecomposeTheWord : Obligations.FieldsRecomposeTheWord := by
  refine ⟨fun u v w => ?_, by decide, eq_or_fields_of_biasedExponent, fun w => ?_, fun w => ?_, ?_⟩
  · rw [biasedExponent_shiftLeft_eq_and]
    exact ⟨and_and_and_eq_zero_of_masks_disjoint (by decide) u v, and_and_and_eq_zero_of_masks_disjoint (by decide) u w,
      and_and_and_eq_zero_of_masks_disjoint (by decide) v w⟩
  · rw [ofInt_exponent_add_bias]; exact eq_or_fields_of_biasedExponent w
  · obtain ⟨hlo, hhi⟩ := exponent_mem_range w
    omega
  · intro v w hs he hm
    rw [eq_or_fields_of_biasedExponent v, hs, he, hm, ← eq_or_fields_of_biasedExponent w]

end Sys2Proof.Machine
end

section
/-! Proofs of the statements about fp16_decoder (41_decoder.md R60 to R64). A widened word is described by its number; its
fields, its closed form, its value and the word it came from are read off that number. -/

namespace Sys2Proof.Machine

/-! ## The output ports while `dec_w` is driven (R15, R65) -/

theorem State.decF32_of_decW {s : State} {w : F16} (h : s.decW = some w) : s.decF32 = some (dec32 w) := by
  simp [State.decF32, h]

theorem State.decF64_of_decW {s : State} {w : F16} (h : s.decW = some w) : s.decF64 = some (dec64 w) := by
  simp [State.decF64, h]

/-- An operation that drives `dec_w` and returns `v` completes with `v` zero-extended, its operand on `dec_w` (R44). -/
theorem exec_completes_of_driveDec_returns {i : Instr} {w : F16} {n : Nat} {v : BitVec n} {s : State}
    (h : exec i s = .next ((s.driveDec w).returns v)) :
    ∃ t, exec i s = .next t ∧ t.taken = some (.result (v.setWidth 64)) ∧ t.decW = some w :=
  ⟨_, h, by rw [State.returns_taken, doutOf], by rw [State.returns_decW, State.driveDec_decW]⟩

/-! ## The number of a widened word (R60, R61, R62) -/

@[simp] theorem dec32_zero : dec32 0x0000#16 = 0#32 := if_pos rfl
@[simp] theorem dec64_zero : dec64 0x0000#16 = 0#64 := if_pos rfl

/-- Fields that stand apart are added by `|||`. -/
theorem toNat_or_of_dvd_of_lt {n i : Nat} {x y : BitVec n} (hx : 2 ^ i ∣ x.toNat) (hy : y.toNat < 2 ^ i) :
    (x ||| y).toNat = x.toNat + y.toNat := by
  obtain ⟨a, ha⟩ := hx
  rw [BitVec.toNat_or, ha, Nat.two_pow_add_eq_or_of_lt hy]

/-- Appended fields stand apart. -/
theorem toNat_append_eq_add {n m : Nat} (x : BitVec n) (y : BitVec m) :
    (x ++ y).toNat = x.toNat * 2 ^ m + y.toNat := by
  rw [BitVec.toNat_append, ← Nat.shiftLeft_add_eq_or_of_lt y.isLt, Nat.shiftLeft_eq]

/-- A word assembled from three fields, each above the next. -/
theorem toNat_or_or_of_fields_apart {n a b X Y Z : Nat} {x y z : BitVec n} (hab : b ≤ a) (hx : x.toNat = X * 2 ^ a)
    (hy : y.toNat = Y * 2 ^ b) (hya : Y * 2 ^ b < 2 ^ a) (hz : z.toNat = Z) (hzb : Z < 2 ^ b) :
    (x ||| y ||| z).toNat = X * 2 ^ a + Y * 2 ^ b + Z := by
  have hxy : (x ||| y).toNat = X * 2 ^ a + Y * 2 ^ b := by
    rw [toNat_or_of_dvd_of_lt (i := a) (hx ▸ Nat.dvd_mul_left ..) (hy ▸ hya), hx, hy]
  have hdvd : 2 ^ b ∣ (x ||| y).toNat :=
    hxy ▸ Nat.dvd_add ((Nat.pow_dvd_pow 2 hab).mul_left X) (Nat.dvd_mul_left ..)
  rw [toNat_or_of_dvd_of_lt hdvd (hz ▸ hzb), hxy, hz]

/-- A nonzero word widened to binary32: the sign, the field re-biased from 64 to 127, and the mantissa in their places. -/
theorem dec32_toNat {w : F16} (hz : w ≠ 0x0000#16) :
    (dec32 w).toNat = w.toNat / 2 ^ 15 * 2 ^ 31 + (w.toNat / 2 ^ 8 % 2 ^ 7 + 63) * 2 ^ 23 + w.toNat % 2 ^ 8 * 2 ^ 15 := by
  have hw := w.isLt
  rw [dec32, if_neg (show ¬ w = f16Zero from hz)]
  refine toNat_or_or_of_fields_apart (by decide) ?sign ?exponent (by omega) ?mantissa (by omega)
  case sign => rw [BitVec.toNat_shiftLeft, BitVec.toNat_setWidth, signBit_toNat, Nat.shiftLeft_eq]; omega
  case exponent => rw [BitVec.toNat_shiftLeft, BitVec.toNat_ofInt, exponent_eq, bin32Bias, Nat.shiftLeft_eq]; omega
  case mantissa => rw [BitVec.toNat_shiftLeft, BitVec.toNat_setWidth, mantissaBits_toNat, Nat.shiftLeft_eq]; omega

/-- A nonzero word widened to binary64: the sign, the field re-biased from 64 to 1023, and the mantissa in their places. -/
theorem dec64_toNat {w : F16} (hz : w ≠ 0x0000#16) :
    (dec64 w).toNat = w.toNat / 2 ^ 15 * 2 ^ 63 + (w.toNat / 2 ^ 8 % 2 ^ 7 + 959) * 2 ^ 52 + w.toNat % 2 ^ 8 * 2 ^ 44 := by
  have hw := w.isLt
  rw [dec64, if_neg (show ¬ w = f16Zero from hz)]
  refine toNat_or_or_of_fields_apart (by decide) ?sign ?exponent (by omega) ?mantissa (by omega)
  case sign => rw [BitVec.toNat_shiftLeft, BitVec.toNat_setWidth, signBit_toNat, Nat.shiftLeft_eq]; omega
  case exponent => rw [BitVec.toNat_shiftLeft, BitVec.toNat_ofInt, exponent_eq, bin64Bias, Nat.shiftLeft_eq]; omega
  case mantissa => rw [BitVec.toNat_shiftLeft, BitVec.toNat_setWidth, mantissaBits_toNat, Nat.shiftLeft_eq]; omega

/-! ## The closed forms (R60, R61) -/

/-- The number of a closed form `{w[15], (w[14:8] + d) in k bits, w[7:0], z zero bits}`. -/
theorem closedForm_toNat (w : F16) {k : Nat} (d : BitVec k) (z : Nat) (hd : 2 ^ 7 + d.toNat ≤ 2 ^ k) :
    (w.extractLsb' 15 1 ++ ((w.extractLsb' 8 7).setWidth k + d) ++ w.extractLsb' 0 8 ++ 0#z).toNat =
      ((w.toNat / 2 ^ 15 * 2 ^ k + (w.toNat / 2 ^ 8 % 2 ^ 7 + d.toNat)) * 2 ^ 8 + w.toNat % 2 ^ 8) * 2 ^ z := by
  have hsum : w.toNat / 2 ^ 8 % 2 ^ 7 + d.toNat < 2 ^ k := by omega
  have hsign : w.toNat / 2 ^ 15 % 2 ^ 1 = w.toNat / 2 ^ 15 := by omega
  simp only [toNat_append_eq_add, BitVec.toNat_add, BitVec.toNat_setWidth, BitVec.extractLsb'_toNat, BitVec.toNat_ofNat,
    Nat.shiftRight_eq_div_pow, Nat.zero_mod, hsign]
  rw [Nat.mod_eq_of_lt (a := w.toNat / 2 ^ 8 % 2 ^ 7) (by omega), Nat.mod_eq_of_lt hsum, Nat.div_one, Nat.add_zero]

theorem dec32_eq_closedForm {w : F16} (hz : w ≠ 0x0000#16) :
    dec32 w = w.extractLsb' 15 1 ++ ((w.extractLsb' 8 7).setWidth 8 + 63#8) ++ w.extractLsb' 0 8 ++ 0#15 := by
  apply BitVec.eq_of_toNat_eq
  rw [dec32_toNat hz, closedForm_toNat w 63#8 15 (by decide), BitVec.toNat_ofNat]; omega

theorem dec64_eq_closedForm {w : F16} (hz : w ≠ 0x0000#16) :
    dec64 w = w.extractLsb' 15 1 ++ ((w.extractLsb' 8 7).setWidth 11 + 959#11) ++ w.extractLsb' 0 8 ++ 0#44 := by
  apply BitVec.eq_of_toNat_eq
  rw [dec64_toNat hz, closedForm_toNat w 959#11 44 (by decide), BitVec.toNat_ofNat]; omega

/-- Settles O16: the assembled fields are the closed form, and the operation returns them. -/
theorem dec32WidensByClosedForm : Obligations.Dec32WidensByClosedForm := by
  intro w s
  obtain ⟨t, ht, htaken, hw⟩ := exec_completes_of_driveDec_returns (i := .dec32 w) (s := s) rfl
  refine ⟨?_, t, ht, htaken, hw, State.decF32_of_decW hw⟩
  split
  next hz => rw [hz, dec32_zero]
  next hz => exact dec32_eq_closedForm hz

/-- Settles O17: the assembled fields are the closed form, and the operation returns them. -/
theorem dec64WidensByClosedForm : Obligations.Dec64WidensByClosedForm := by
  intro w s
  obtain ⟨t, ht, htaken, hw⟩ := exec_completes_of_driveDec_returns (i := .dec64 w) (s := s) rfl
  rw [BitVec.setWidth_eq] at htaken
  refine ⟨?_, t, ht, htaken, hw, State.decF64_of_decW hw⟩
  split
  next hz => rw [hz, dec64_zero]
  next hz => exact dec64_eq_closedForm hz

/-! ## Exactness (R63) -/

/-- Widening a mantissa by zero bits and moving the bias with the exponent keeps the value. -/
theorem valWide_widened {w : F16} (hz : w ≠ 0x0000#16) (j : Nat) {d : Nat} (hd : d ≠ 0) :
    valWide (8 + j) (64 + d) (sign16 w) (w.toNat / 2 ^ 8 % 2 ^ 7 + d) (w.toNat % 2 ^ 8 * 2 ^ j) = val16 w := by
  have hexp : ((w.toNat / 2 ^ 8 % 2 ^ 7 + d : ℕ) : ℤ) - (64 + d) = ((w.toNat / 2 ^ 8 % 2 ^ 7 : ℕ) : ℤ) - 64 := by
    push_cast; ring
  have hfrac : ((w.toNat % 2 ^ 8 * 2 ^ j : ℕ) : ℚ) / 2 ^ (8 + j) = ((w.toNat % 2 ^ 8 : ℕ) : ℚ) / 256 := by
    push_cast; rw [pow_add, mul_div_mul_right _ _ (by positivity)]; norm_num
  rw [valWide_normal _ _ _ _ (by omega), hexp, hfrac,
    val16_of_fields (sign16 w) (w.toNat / 2 ^ 8 % 2 ^ 7) (w.toNat % 2 ^ 8) hz rfl (expField16_toNat w) (manField16_toNat w)]

theorem val32_dec32 (w : F16) : val32 (dec32 w) = some (val16 w) := by
  by_cases hz : w = 0x0000#16
  · rw [hz, dec32_zero, val16_zero, val32_of_fields false 0 0 rfl rfl rfl rfl, valWide_subnormal]; simp
  have hn := dec32_toNat hz
  have hw := w.isLt
  have hfin : notFinite32 (dec32 w) = false := by rw [Bool.eq_false_iff, ne_eq, notFinite32_iff]; omega
  have hsign : sign32 (dec32 w) = sign16 w := by rw [sign32_eq, sign16_eq, decide_eq_decide]; omega
  rw [val32_of_fields (sign16 w) (w.toNat / 2 ^ 8 % 2 ^ 7 + 63) (w.toNat % 2 ^ 8 * 2 ^ 15) hfin hsign
    (by rw [expField32_toNat]; omega) (by rw [manField32_toNat]; omega)]
  exact congrArg some (valWide_widened hz 15 (d := 63) (by decide))

theorem val64_dec64 (w : F16) : val64 (dec64 w) = some (val16 w) := by
  by_cases hz : w = 0x0000#16
  · rw [hz, dec64_zero, val16_zero, val64_of_fields false 0 0 rfl rfl rfl rfl, valWide_subnormal]; simp
  have hn := dec64_toNat hz
  have hw := w.isLt
  have hfin : notFinite64 (dec64 w) = false := by rw [Bool.eq_false_iff, ne_eq, notFinite64_iff]; omega
  have hsign : sign64 (dec64 w) = sign16 w := by rw [sign64_eq, sign16_eq, decide_eq_decide]; omega
  rw [val64_of_fields (sign16 w) (w.toNat / 2 ^ 8 % 2 ^ 7 + 959) (w.toNat % 2 ^ 8 * 2 ^ 44) hfin hsign
    (by rw [expField64_toNat]; omega) (by rw [manField64_toNat]; omega)]
  exact congrArg some (valWide_widened hz 44 (d := 959) (by decide))

/-- Settles O18: lane by lane, the fields are the word's own, moved. -/
theorem wideningIsExact : Obligations.WideningIsExact := fun w => ⟨val32_dec32 w, val64_dec64 w⟩

/-! ## Injectivity and image (R64) -/

/-- The composition step of the encoder reads a widened nonzero word back. -/
theorem compose32_dec32 {w : F16} (hz : w ≠ 0x0000#16) : compose32 (dec32 w) = w := by
  have hn := dec32_toNat hz
  have hw := w.isLt
  apply BitVec.eq_of_toNat_eq; rw [compose32_toNat]; omega

/-- The composition step of the encoder reads a widened nonzero word back. -/
theorem compose64_dec64 {w : F16} (hz : w ≠ 0x0000#16) : compose64 (dec64 w) = w := by
  have hn := dec64_toNat hz
  have hw := w.isLt
  apply BitVec.eq_of_toNat_eq; rw [compose64_toNat]; omega

theorem dec32_ne_zero {w : F16} (hz : w ≠ 0x0000#16) : dec32 w ≠ 0#32 := by
  rw [ne_eq, ← BitVec.toNat_inj, dec32_toNat hz, BitVec.toNat_ofNat]; omega

theorem dec64_ne_zero {w : F16} (hz : w ≠ 0x0000#16) : dec64 w ≠ 0#64 := by
  rw [ne_eq, ← BitVec.toNat_inj, dec64_toNat hz, BitVec.toNat_ofNat]; omega

/-- A function that can be undone off one point, whose value there it takes nowhere else, is injective. -/
theorem injective_of_leftInverse_off {α β : Type*} {f : α → β} {g : β → α} {a : α} (ha : ∀ x, x ≠ a → f x ≠ f a)
    (hg : ∀ x, x ≠ a → g (f x) = x) : Function.Injective f := by
  intro x y h
  by_cases hx : x = a
  · by_contra hne
    exact ha y (fun hy => hne (hx.trans hy.symm)) (hx ▸ h.symm)
  · have hy : y ≠ a := fun hy => ha x hx (hy ▸ h)
    rw [← hg x hx, h, hg y hy]

theorem dec32_injective : Function.Injective dec32 :=
  injective_of_leftInverse_off (fun _ hz => dec32_zero ▸ dec32_ne_zero hz) (fun _ => compose32_dec32)

theorem dec64_injective : Function.Injective dec64 :=
  injective_of_leftInverse_off (fun _ hz => dec64_zero ▸ dec64_ne_zero hz) (fun _ => compose64_dec64)

/-- The patterns nonzero words widen to: those R64 names beside the positive zero, each from the word composed of it. -/
theorem exists_ne_zero_dec32_eq_iff (p : Bin32) :
    (∃ w, w ≠ 0x0000#16 ∧ dec32 w = p) ↔
      63 ≤ (p.extractLsb' 23 8).toNat ∧ (p.extractLsb' 23 8).toNat ≤ 190 ∧ p.extractLsb' 0 15 = 0#15 ∧
        p ≠ 0x1F800000#32 := by
  simp only [ne_eq, ← BitVec.toNat_inj (x := p), ← BitVec.toNat_inj (x := p.extractLsb' 0 15),
    BitVec.extractLsb'_toNat, Nat.shiftRight_eq_div_pow, BitVec.toNat_ofNat]
  constructor
  · rintro ⟨w, hz, rfl⟩
    have hpos : w.toNat ≠ 0 := fun h => hz (BitVec.eq_of_toNat_eq h)
    have hn := dec32_toNat hz
    have hw := w.isLt
    omega
  · rintro ⟨hlo, hhi, hzeros, hne⟩
    have hp := p.isLt
    have hc := compose32_toNat p
    have hz : compose32 p ≠ 0x0000#16 := by rw [ne_eq, ← BitVec.toNat_inj, hc, BitVec.toNat_ofNat]; omega
    refine ⟨compose32 p, hz, BitVec.eq_of_toNat_eq ?_⟩
    rw [dec32_toNat hz, hc]; omega

/-- The patterns nonzero words widen to: those R64 names beside the positive zero, each from the word composed of it. -/
theorem exists_ne_zero_dec64_eq_iff (p : Bin64) :
    (∃ w, w ≠ 0x0000#16 ∧ dec64 w = p) ↔
      959 ≤ (p.extractLsb' 52 11).toNat ∧ (p.extractLsb' 52 11).toNat ≤ 1086 ∧ p.extractLsb' 0 44 = 0#44 ∧
        p ≠ 0x3BF0000000000000#64 := by
  simp only [ne_eq, ← BitVec.toNat_inj (x := p), ← BitVec.toNat_inj (x := p.extractLsb' 0 44),
    BitVec.extractLsb'_toNat, Nat.shiftRight_eq_div_pow, BitVec.toNat_ofNat]
  constructor
  · rintro ⟨w, hz, rfl⟩
    have hpos : w.toNat ≠ 0 := fun h => hz (BitVec.eq_of_toNat_eq h)
    have hn := dec64_toNat hz
    have hw := w.isLt
    omega
  · rintro ⟨hlo, hhi, hzeros, hne⟩
    have hp := p.isLt
    have hc := compose64_toNat p
    have hz : compose64 p ≠ 0x0000#16 := by rw [ne_eq, ← BitVec.toNat_inj, hc, BitVec.toNat_ofNat]; omega
    refine ⟨compose64 p, hz, BitVec.eq_of_toNat_eq ?_⟩
    rw [dec64_toNat hz, hc]; omega

/-- The values of a function are its value at one point and its values elsewhere. -/
theorem exists_eq_iff_eq_or_exists_ne {α β : Type*} {f : α → β} {a : α} {b : β} (hab : f a = b) (y : β) :
    (∃ x, f x = y) ↔ y = b ∨ ∃ x, x ≠ a ∧ f x = y := by
  constructor
  · rintro ⟨x, rfl⟩
    by_cases hx : x = a
    · exact .inl (hx ▸ hab)
    · exact .inr ⟨x, hx, rfl⟩
  · rintro (rfl | ⟨x, -, hx⟩)
    · exact ⟨a, hab⟩
    · exact ⟨x, hx⟩

/-- Settles O19: composing undoes widening off the zero word, and the zero word adds the positive zero to the image. -/
theorem decoderImageIsExactlyThesePatterns : Obligations.DecoderImageIsExactlyThesePatterns :=
  ⟨fun _ _ h => dec32_injective h, fun _ _ h => dec64_injective h,
    fun p => (exists_eq_iff_eq_or_exists_ne dec32_zero p).trans (or_congr_right (exists_ne_zero_dec32_eq_iff p)),
    fun p => (exists_eq_iff_eq_or_exists_ne dec64_zero p).trans (or_congr_right (exists_ne_zero_dec64_eq_iff p))⟩

end Sys2Proof.Machine
end

section
/-! Proofs of the statements about fp16_encoder on patterns and their numbers (42_encoder.md R71, R76 to R78, R80, R82). The
sign and the magnitude field decide a lane's outcome; in range the word's number is the magnitude rounded at the cut. -/

namespace Sys2Proof.Machine

/-! ## The lane's two ports show its outcome (R82) -/

/-- The 32-bit lane completes, its ports and the outcome taken all showing the same word or the failure. -/
theorem exec_enc32_completes (b : Bin32) (s : State) : ∃ t, exec (.enc32 b) s = .next t ∧
    (∀ w, enc32 b = some w →
      t.taken = some (.result (w.setWidth 64)) ∧ t.enc32Err = some false ∧ t.enc32W = some w) ∧
    (enc32 b = none →
      t.taken = some .conversionFailure ∧ t.enc32Err = some true ∧ t.enc32W = some 0x0000#16) := by
  refine ⟨(s.driveEnc32 b).endNarrowing (enc32 b), rfl, fun w h => ?_, fun h => ?_⟩
  · simp [State.enc32Err, State.enc32W, h, doutOf]
  · simp [State.enc32Err, State.enc32W, h]

/-- The 64-bit lane completes, its ports and the outcome taken all showing the same word or the failure. -/
theorem exec_enc64_completes (b : Bin64) (s : State) : ∃ t, exec (.enc64 b) s = .next t ∧
    (∀ w, enc64 b = some w →
      t.taken = some (.result (w.setWidth 64)) ∧ t.enc64Err = some false ∧ t.enc64W = some w) ∧
    (enc64 b = none →
      t.taken = some .conversionFailure ∧ t.enc64Err = some true ∧ t.enc64W = some 0x0000#16) := by
  refine ⟨(s.driveEnc64 b).endNarrowing (enc64 b), rfl, fun w h => ?_, fun h => ?_⟩
  · simp [State.enc64Err, State.enc64W, h, doutOf]
  · simp [State.enc64Err, State.enc64W, h]

/-- Settles O32: what the driven port shows is computed from the same narrowing as the outcome taken. -/
theorem encoderPortsShowTheOutcome : Obligations.EncoderPortsShowTheOutcome :=
  ⟨exec_enc32_completes, exec_enc64_completes⟩

theorem exec_enc32_of_eq_some {b : Bin32} {w : F16} (h : enc32 b = some w) (s : State) :
    ∃ t, exec (.enc32 b) s = .next t ∧ t.taken = some (.result (w.setWidth 64)) ∧ t.enc32Err = some false := by
  obtain ⟨t, ht, hword, -⟩ := exec_enc32_completes b s
  obtain ⟨htaken, herr, -⟩ := hword w h
  exact ⟨t, ht, htaken, herr⟩

theorem exec_enc32_of_eq_none {b : Bin32} (h : enc32 b = none) (s : State) :
    ∃ t, exec (.enc32 b) s = .next t ∧ t.taken = some .conversionFailure ∧ t.enc32Err = some true := by
  obtain ⟨t, ht, -, hfail⟩ := exec_enc32_completes b s
  obtain ⟨htaken, herr, -⟩ := hfail h
  exact ⟨t, ht, htaken, herr⟩

theorem exec_enc64_of_eq_some {b : Bin64} {w : F16} (h : enc64 b = some w) (s : State) :
    ∃ t, exec (.enc64 b) s = .next t ∧ t.taken = some (.result (w.setWidth 64)) ∧ t.enc64Err = some false := by
  obtain ⟨t, ht, hword, -⟩ := exec_enc64_completes b s
  obtain ⟨htaken, herr, -⟩ := hword w h
  exact ⟨t, ht, htaken, herr⟩

theorem exec_enc64_of_eq_none {b : Bin64} (h : enc64 b = none) (s : State) :
    ∃ t, exec (.enc64 b) s = .next t ∧ t.taken = some .conversionFailure ∧ t.enc64Err = some true := by
  obtain ⟨t, ht, -, hfail⟩ := exec_enc64_completes b s
  obtain ⟨htaken, herr, -⟩ := hfail h
  exact ⟨t, ht, htaken, herr⟩

/-- Settles O21: an all-ones exponent field is the first test, and it looks at nothing else. -/
theorem notFiniteOperandFails : Obligations.NotFiniteOperandFails :=
  ⟨fun _ s h => exec_enc32_of_eq_none (enc32_of_notFinite (beq_iff_eq.mpr h)) s,
    fun _ s h => exec_enc64_of_eq_none (enc64_of_notFinite (beq_iff_eq.mpr h)) s⟩

/-! ## Every operand is of one of four kinds (R70) -/

theorem operand32_cases (b : Bin32) :
    notFinite32 b = true ∨ deadZone32 b = true ∨ outOfRange32 b = true ∨ inRange32 b = true := by
  by_cases hf : notFinite32 b = true
  · exact .inl hf
  by_cases hd : deadZone32 b = true
  · exact .inr (.inl hd)
  by_cases ho : outOfRange32 b = true
  · exact .inr (.inr (.inl ho))
  · exact .inr (.inr (.inr (by simp [inRange32, hf, hd, ho])))

theorem operand64_cases (b : Bin64) :
    notFinite64 b = true ∨ deadZone64 b = true ∨ outOfRange64 b = true ∨ inRange64 b = true := by
  by_cases hf : notFinite64 b = true
  · exact .inl hf
  by_cases hd : deadZone64 b = true
  · exact .inr (.inl hd)
  by_cases ho : outOfRange64 b = true
  · exact .inr (.inr (.inl ho))
  · exact .inr (.inr (.inr (by simp [inRange64, hf, hd, ho])))

/-- A narrowing that gives a word gave `ZERO` at step 2 or the composed word at step 3. -/
theorem enc32_eq_some_cases {b : Bin32} {w : F16} (h : enc32 b = some w) :
    (deadZone32 b = true ∧ w = 0x0000#16) ∨ (inRange32 b = true ∧ w = compose32 (incremented32 b)) := by
  obtain hf | hd | ho | hr := operand32_cases b
  · rw [enc32_of_notFinite hf] at h; cases h
  · rw [enc32_of_deadZone hd] at h; exact .inl ⟨hd, (Option.some_inj.mp h).symm⟩
  · rw [enc32_of_outOfRange ho] at h; cases h
  · rw [enc32_of_inRange hr] at h; exact .inr ⟨hr, (Option.some_inj.mp h).symm⟩

/-- A narrowing that gives a word gave `ZERO` at step 2 or the composed word at step 3. -/
theorem enc64_eq_some_cases {b : Bin64} {w : F16} (h : enc64 b = some w) :
    (deadZone64 b = true ∧ w = 0x0000#16) ∨ (inRange64 b = true ∧ w = compose64 (incremented64 b)) := by
  obtain hf | hd | ho | hr := operand64_cases b
  · rw [enc64_of_notFinite hf] at h; cases h
  · rw [enc64_of_deadZone hd] at h; exact .inl ⟨hd, (Option.some_inj.mp h).symm⟩
  · rw [enc64_of_outOfRange ho] at h; cases h
  · rw [enc64_of_inRange hr] at h; exact .inr ⟨hr, (Option.some_inj.mp h).symm⟩

/-- Beyond `MAX`'s magnitude one of the two failing tests applies: infinity and NaN stand there too (R71, R73). -/
theorem enc32_of_magnitude_gt {b : Bin32} (h : 0x5F7F8000 < b.toNat % 2 ^ 31) : enc32 b = none := by
  by_cases hf : notFinite32 b = true
  · exact enc32_of_notFinite hf
  · exact enc32_of_outOfRange ((outOfRange32_iff b).mpr ⟨hf, h⟩)

/-- Beyond `MAX`'s magnitude one of the two failing tests applies: infinity and NaN stand there too (R71, R73). -/
theorem enc64_of_magnitude_gt {b : Bin64} (h : 0x43EFF00000000000 < b.toNat % 2 ^ 63) : enc64 b = none := by
  by_cases hf : notFinite64 b = true
  · exact enc64_of_notFinite hf
  · exact enc64_of_outOfRange ((outOfRange64_iff b).mpr ⟨hf, h⟩)

/-! ## Step 3 on numbers (R74, R75, R78) -/

/-- The in-range magnitudes of either sign (R78). -/
theorem magnitude32_bounds_of_inRange {b : Bin32} (h : inRange32 b = true) :
    0x1F800000 ≤ b.toNat % 2 ^ 31 ∧ b.toNat % 2 ^ 31 ≤ 0x5F7F8000 := by
  rw [inRange32_iff] at h; split at h <;> omega

/-- In range the increment does not wrap, so `r` is the unbounded sum (R78). -/
theorem incremented32_toNat_of_inRange {b : Bin32} (h : inRange32 b = true) :
    (incremented32 b).toNat = b.toNat + 2 ^ 14 := by
  have hb := b.isLt
  obtain ⟨-, hhi⟩ := magnitude32_bounds_of_inRange h
  rw [incremented32_toNat]; omega

/-- The in-range magnitudes of either sign (R78). -/
theorem magnitude64_bounds_of_inRange {b : Bin64} (h : inRange64 b = true) :
    0x3BF0000000000000 ≤ b.toNat % 2 ^ 63 ∧ b.toNat % 2 ^ 63 ≤ 0x43EFF00000000000 := by
  rw [inRange64_iff] at h; split at h <;> omega

/-- In range the increment does not wrap, so `r` is the unbounded sum (R78). -/
theorem incremented64_toNat_of_inRange {b : Bin64} (h : inRange64 b = true) :
    (incremented64 b).toNat = b.toNat + 2 ^ 43 := by
  have hb := b.isLt
  obtain ⟨-, hhi⟩ := magnitude64_bounds_of_inRange h
  rw [incremented64_toNat]; omega

/-- The composed word keeps the sign, and below it stands the magnitude rounded at the cut, re-biased. -/
theorem compose32_incremented32_toNat {b : Bin32} (h : inRange32 b = true) :
    (compose32 (incremented32 b)).toNat =
      b.toNat / 2 ^ 31 * 2 ^ 15 + ((b.toNat % 2 ^ 31 + 2 ^ 14) / 2 ^ 15 - 63 * 2 ^ 8) := by
  obtain ⟨hlo, hhi⟩ := magnitude32_bounds_of_inRange h
  rw [compose32_toNat, incremented32_toNat_of_inRange h]; omega

/-- The composed word keeps the sign, and below it stands the magnitude rounded at the cut, re-biased. -/
theorem compose64_incremented64_toNat {b : Bin64} (h : inRange64 b = true) :
    (compose64 (incremented64 b)).toNat =
      b.toNat / 2 ^ 63 * 2 ^ 15 + ((b.toNat % 2 ^ 63 + 2 ^ 43) / 2 ^ 44 - 959 * 2 ^ 8) := by
  obtain ⟨hlo, hhi⟩ := magnitude64_bounds_of_inRange h
  rw [compose64_toNat, incremented64_toNat_of_inRange h]; omega

/-! ## Round trip (R80) -/

/-- The pattern of a nonzero word is in range, its magnitude between those of R78. -/
theorem inRange32_dec32 {w : F16} (hz : w ≠ 0x0000#16) : inRange32 (dec32 w) = true := by
  have hw := w.isLt
  have hpos : w.toNat ≠ 0 := fun h => hz (BitVec.eq_of_toNat_eq h)
  have hn := dec32_toNat hz
  rw [inRange32_iff]; split <;> omega

/-- The pattern of a nonzero word is in range, its magnitude between those of R78. -/
theorem inRange64_dec64 {w : F16} (hz : w ≠ 0x0000#16) : inRange64 (dec64 w) = true := by
  have hw := w.isLt
  have hpos : w.toNat ≠ 0 := fun h => hz (BitVec.eq_of_toNat_eq h)
  have hn := dec64_toNat hz
  rw [inRange64_iff]; split <;> omega

/-- The bits below the cut are zero in a widened word, so the increment is truncated away. -/
theorem enc32_dec32 (w : F16) : enc32 (dec32 w) = some w := by
  by_cases hz : w = 0x0000#16
  · rw [hz, dec32_zero]; exact enc32_of_deadZone (by decide)
  have hn := dec32_toNat hz
  have hw := w.isLt
  rw [enc32_of_inRange (inRange32_dec32 hz), Option.some_inj]
  apply BitVec.eq_of_toNat_eq
  rw [compose32_incremented32_toNat (inRange32_dec32 hz)]; omega

/-- The bits below the cut are zero in a widened word, so the increment is truncated away. -/
theorem enc64_dec64 (w : F16) : enc64 (dec64 w) = some w := by
  by_cases hz : w = 0x0000#16
  · rw [hz, dec64_zero]; exact enc64_of_deadZone (by decide)
  have hn := dec64_toNat hz
  have hw := w.isLt
  rw [enc64_of_inRange (inRange64_dec64 hz), Option.some_inj]
  apply BitVec.eq_of_toNat_eq
  rw [compose64_incremented64_toNat (inRange64_dec64 hz)]; omega

/-- Settles O30: the pattern taken of the decoder is the widened word, which each lane narrows back. -/
theorem wideningThenNarrowingIsTheIdentity : Obligations.WideningThenNarrowingIsTheIdentity := by
  constructor
  · intro w s
    obtain ⟨t, ht, htaken, -⟩ := exec_completes_of_driveDec_returns (i := .dec32 w) (s := s) rfl
    obtain ⟨u, hu, hutaken, -⟩ := exec_enc32_of_eq_some (enc32_dec32 w) t
    exact ⟨dec32 w, t, u, ht, htaken, hu, hutaken, enc32_dec32 w⟩
  · intro w s
    obtain ⟨t, ht, htaken, -⟩ := exec_completes_of_driveDec_returns (i := .dec64 w) (s := s) rfl
    obtain ⟨u, hu, hutaken, -⟩ := exec_enc64_of_eq_some (enc64_dec64 w) t
    rw [BitVec.setWidth_eq] at htaken
    exact ⟨dec64 w, t, u, ht, htaken, hu, hutaken, enc64_dec64 w⟩

/-! ## The five cases of each lane (R76, R77) -/

/-- Settles O24: the first four cases are the tests on the magnitude, the last is step 3 on unbounded numbers. -/
theorem enc32FollowsItsFiveCases : Obligations.Enc32FollowsItsFiveCases := by
  intro b s
  have hb := b.isLt
  refine ⟨fun hf => ?_, fun hsg hm => ?_, fun hsg hm => ?_, fun hm => ?_, fun hlo hhi => ?_⟩
  · exact exec_enc32_of_eq_none (enc32_of_notFinite ((notFinite32_iff b).mpr hf)) s
  · exact exec_enc32_of_eq_some (enc32_of_deadZone ((deadZone32_iff b).mpr (by split <;> omega))) s
  · exact exec_enc32_of_eq_some (enc32_of_deadZone ((deadZone32_iff b).mpr (by split <;> omega))) s
  · exact exec_enc32_of_eq_none (enc32_of_magnitude_gt hm) s
  · have hr : inRange32 b = true := by
      refine (inRange32_iff b).mpr ⟨?_, hhi⟩
      split at hlo <;> split <;> omega
    obtain ⟨hlow, -⟩ := magnitude32_bounds_of_inRange hr
    obtain ⟨t, ht, htaken, herr⟩ := exec_enc32_of_eq_some (enc32_of_inRange hr) s
    refine ⟨t, ht, herr, ?_⟩
    rw [htaken, ← BitVec.ofNat_toNat, compose32_incremented32_toNat hr]
    refine congrArg (fun n => some (TxnOutcome.result (BitVec.ofNat 64 n))) ?_
    omega

/-- Settles O25: the first four cases are the tests on the magnitude, the last is step 3 on unbounded numbers. -/
theorem enc64FollowsItsFiveCases : Obligations.Enc64FollowsItsFiveCases := by
  intro b s
  have hb := b.isLt
  refine ⟨fun hf => ?_, fun hsg hm => ?_, fun hsg hm => ?_, fun hm => ?_, fun hlo hhi => ?_⟩
  · exact exec_enc64_of_eq_none (enc64_of_notFinite ((notFinite64_iff b).mpr hf)) s
  · exact exec_enc64_of_eq_some (enc64_of_deadZone ((deadZone64_iff b).mpr (by split <;> omega))) s
  · exact exec_enc64_of_eq_some (enc64_of_deadZone ((deadZone64_iff b).mpr (by split <;> omega))) s
  · exact exec_enc64_of_eq_none (enc64_of_magnitude_gt hm) s
  · have hr : inRange64 b = true := by
      refine (inRange64_iff b).mpr ⟨?_, hhi⟩
      split at hlo <;> split <;> omega
    obtain ⟨hlow, -⟩ := magnitude64_bounds_of_inRange hr
    obtain ⟨t, ht, htaken, herr⟩ := exec_enc64_of_eq_some (enc64_of_inRange hr) s
    refine ⟨t, ht, herr, ?_⟩
    rw [htaken, ← BitVec.ofNat_toNat, compose64_incremented64_toNat hr]
    refine congrArg (fun n => some (TxnOutcome.result (BitVec.ofNat 64 n))) ?_
    omega

/-- Settles O26: the sum is the unbounded one and stays below the next power of two; every word is in `[MIN, MAX]`. -/
theorem incrementStaysBelowTheSign : Obligations.IncrementStaysBelowTheSign := by
  constructor
  · intro b h
    have hsum := incremented32_toNat_of_inRange h
    obtain ⟨hlo, hhi⟩ := magnitude32_bounds_of_inRange h
    refine ⟨hsum, by omega, ?_, ?_, ?_, ?_, f16Min_le_val16 _, val16_le_f16Max _⟩
    · rw [sign32_eq, sign32_eq, decide_eq_decide, hsum]; omega
    · rw [expField32_toNat, hsum]; omega
    · rw [expField32_toNat, hsum]; omega
    · rw [BitVec.extractLsb'_toNat, Nat.shiftRight_eq_div_pow, hsum]; omega
  · intro b h
    have hsum := incremented64_toNat_of_inRange h
    obtain ⟨hlo, hhi⟩ := magnitude64_bounds_of_inRange h
    refine ⟨hsum, by omega, ?_, ?_, ?_, ?_, f16Min_le_val16 _, val16_le_f16Max _⟩
    · rw [sign64_eq, sign64_eq, decide_eq_decide, hsum]; omega
    · rw [expField64_toNat, hsum]; omega
    · rw [expField64_toNat, hsum]; omega
    · rw [BitVec.extractLsb'_toNat, Nat.shiftRight_eq_div_pow, hsum]; omega

end Sys2Proof.Machine
end

section
/-! Proofs of the statements about fp16_encoder in values (42_encoder.md R72, R73, R81, R84, R85). A finite pattern is a sign
and a strictly monotone function of its magnitude field, so tests on values are tests on that field. -/

namespace Sys2Proof.Machine

/-! ## The dead zone and the range as intervals of values (R72, R73) -/

/-- A word's value is that of the pattern it widens to (R63). -/
theorem val16_eq_signed_wideMagnitude32 (w : F16) :
    val16 w = signFactor (sign32 (dec32 w)) * wideMagnitude 23 127 ((dec32 w).toNat % 2 ^ 31) :=
  val32_eq_signed_wideMagnitude (val32_dec32 w)

/-- A word's value is that of the pattern it widens to (R63). -/
theorem val16_eq_signed_wideMagnitude64 (w : F16) :
    val16 w = signFactor (sign64 (dec64 w)) * wideMagnitude 52 1023 ((dec64 w).toNat % 2 ^ 63) :=
  val64_eq_signed_wideMagnitude (val64_dec64 w)

theorem wideMagnitude_lt_iff (mw : Nat) (bias : Int) (M N : Nat) :
    wideMagnitude mw bias M < wideMagnitude mw bias N ↔ M < N := (wideMagnitude_strictMono mw bias).lt_iff_lt

/-- Only one bound of the dead zone binds each sign, and there magnitudes are compared (R72). -/
theorem mem_deadZone_iff_magnitude_lt {mw : Nat} {bias : Int} {L U : Nat}
    (hL : val16 f16MaxNegative = -wideMagnitude mw bias L) (hU : val16 f16MinPositive = wideMagnitude mw bias U)
    (s : Bool) (M : Nat) :
    (val16 f16MaxNegative < signFactor s * wideMagnitude mw bias M ∧
      signFactor s * wideMagnitude mw bias M < val16 f16MinPositive) ↔ M < if s then L else U := by
  have hnonneg := wideMagnitude_nonneg mw bias M
  have hneg : val16 f16MaxNegative < 0 := val16_neg_of_sign_true (by decide)
  have hpos : 0 < val16 f16MinPositive := val16_pos_of_sign_false (by decide) (by decide)
  cases s with
  | false =>
    rw [signFactor_false, one_mul, and_iff_right (hneg.trans_le hnonneg), hU, wideMagnitude_lt_iff, if_neg (by decide)]
  | true =>
    rw [signFactor_true, neg_one_mul, and_iff_left (by linarith), hL, neg_lt_neg_iff, wideMagnitude_lt_iff,
      if_pos rfl]

/-- The magnitude test of R72 in the 32-bit lane. -/
theorem mem_deadZone32_iff {b : Bin32} {x : ℚ} (h : val32 b = some x) :
    (val16 f16MaxNegative < x ∧ x < val16 f16MinPositive) ↔
      b.toNat % 2 ^ 31 < if sign32 b then 0x1F800000 else 0x1F808000 := by
  have hL : val16 f16MaxNegative = -wideMagnitude 23 127 0x1F800000 :=
    (val16_eq_signed_wideMagnitude32 f16MaxNegative).trans (neg_one_mul _)
  have hU : val16 f16MinPositive = wideMagnitude 23 127 0x1F808000 :=
    (val16_eq_signed_wideMagnitude32 f16MinPositive).trans (one_mul _)
  rw [val32_eq_signed_wideMagnitude h]
  exact mem_deadZone_iff_magnitude_lt hL hU (sign32 b) _

/-- The magnitude test of R72 in the 64-bit lane. -/
theorem mem_deadZone64_iff {b : Bin64} {x : ℚ} (h : val64 b = some x) :
    (val16 f16MaxNegative < x ∧ x < val16 f16MinPositive) ↔
      b.toNat % 2 ^ 63 < if sign64 b then 0x3BF0000000000000 else 0x3BF0100000000000 := by
  have hL : val16 f16MaxNegative = -wideMagnitude 52 1023 0x3BF0000000000000 :=
    (val16_eq_signed_wideMagnitude64 f16MaxNegative).trans (neg_one_mul _)
  have hU : val16 f16MinPositive = wideMagnitude 52 1023 0x3BF0100000000000 :=
    (val16_eq_signed_wideMagnitude64 f16MinPositive).trans (one_mul _)
  rw [val64_eq_signed_wideMagnitude h]
  exact mem_deadZone_iff_magnitude_lt hL hU (sign64 b) _

theorem deadZone32_iff_value {b : Bin32} {x : ℚ} (h : val32 b = some x) :
    deadZone32 b = true ↔ val16 f16MaxNegative < x ∧ x < val16 f16MinPositive := by
  rw [mem_deadZone32_iff h, deadZone32_iff, sign32_eq]; simp only [decide_eq_true_eq]

theorem deadZone64_iff_value {b : Bin64} {x : ℚ} (h : val64 b = some x) :
    deadZone64 b = true ↔ val16 f16MaxNegative < x ∧ x < val16 f16MinPositive := by
  rw [mem_deadZone64_iff h, deadZone64_iff, sign64_eq]; simp only [decide_eq_true_eq]

/-- Settles O22: a value's interval is its magnitude's test, which is step 2. -/
theorem deadZoneNarrowsToZero : Obligations.DeadZoneNarrowsToZero := by
  refine ⟨fun b x s h => ⟨mem_deadZone32_iff h, fun hlo hhi => ?_⟩,
    fun b x s h => ⟨mem_deadZone64_iff h, fun hlo hhi => ?_⟩, val16_f16MaxNegative, ?_⟩
  · exact exec_enc32_of_eq_some (enc32_of_deadZone ((deadZone32_iff_value h).mpr ⟨hlo, hhi⟩)) s
  · exact exec_enc64_of_eq_some (enc64_of_deadZone ((deadZone64_iff_value h).mpr ⟨hlo, hhi⟩)) s
  · exact val16_f16MinPositive.trans (by norm_num)

/-- The range `[MIN, MAX]` is symmetric (R73). -/
theorem mem_range_iff_abs_le (x : ℚ) : (val16 f16Min ≤ x ∧ x ≤ val16 f16Max) ↔ |x| ≤ 511 * 2 ^ 55 := by
  rw [val16_f16Min, val16_f16Max, abs_le]

theorem abs_signed_wideMagnitude (mw : Nat) (bias : Int) (s : Bool) (M : Nat) :
    |signFactor s * wideMagnitude mw bias M| = wideMagnitude mw bias M := by
  rw [abs_mul, abs_signFactor, one_mul, abs_of_nonneg (wideMagnitude_nonneg mw bias M)]

/-- The magnitude test of R73 in the 32-bit lane. -/
theorem abs_le_iff_magnitude32_le {b : Bin32} {x : ℚ} (h : val32 b = some x) :
    |x| ≤ 511 * 2 ^ 55 ↔ b.toNat % 2 ^ 31 ≤ 0x5F7F8000 := by
  have hmax : val16 f16Max = wideMagnitude 23 127 0x5F7F8000 :=
    (val16_eq_signed_wideMagnitude32 f16Max).trans (one_mul _)
  rw [val32_eq_signed_wideMagnitude h, abs_signed_wideMagnitude, ← val16_f16Max, hmax,
    (wideMagnitude_strictMono 23 127).le_iff_le]

/-- The magnitude test of R73 in the 64-bit lane. -/
theorem abs_le_iff_magnitude64_le {b : Bin64} {x : ℚ} (h : val64 b = some x) :
    |x| ≤ 511 * 2 ^ 55 ↔ b.toNat % 2 ^ 63 ≤ 0x43EFF00000000000 := by
  have hmax : val16 f16Max = wideMagnitude 52 1023 0x43EFF00000000000 :=
    (val16_eq_signed_wideMagnitude64 f16Max).trans (one_mul _)
  rw [val64_eq_signed_wideMagnitude h, abs_signed_wideMagnitude, ← val16_f16Max, hmax,
    (wideMagnitude_strictMono 52 1023).le_iff_le]

theorem enc32_of_abs_gt {b : Bin32} {x : ℚ} (h : val32 b = some x) (hx : 511 * 2 ^ 55 < |x|) : enc32 b = none :=
  enc32_of_magnitude_gt (not_le.mp fun hle => hx.not_ge ((abs_le_iff_magnitude32_le h).mpr hle))

theorem enc64_of_abs_gt {b : Bin64} {x : ℚ} (h : val64 b = some x) (hx : 511 * 2 ^ 55 < |x|) : enc64 b = none :=
  enc64_of_magnitude_gt (not_le.mp fun hle => hx.not_ge ((abs_le_iff_magnitude64_le h).mpr hle))

/-- Settles O23: magnitudes are compared with `MAX`'s, before rounding. -/
theorem outOfRangeOperandFails : Obligations.OutOfRangeOperandFails :=
  ⟨fun _ x s h => ⟨mem_range_iff_abs_le x, abs_le_iff_magnitude32_le h,
      fun hx => exec_enc32_of_eq_none (enc32_of_abs_gt h hx) s⟩,
    fun _ x s h => ⟨mem_range_iff_abs_le x, abs_le_iff_magnitude64_le h,
      fun hx => exec_enc64_of_eq_none (enc64_of_abs_gt h hx) s⟩⟩

/-! ## The lanes agree on equal values (R84) -/

/-- Widening a mantissa by `j` zero bits and adding `d` to the exponent field and to the bias keeps the number. -/
theorem normalMagnitude_widened (mw j d : Nat) (bias : Int) (M : Nat) :
    normalMagnitude (mw + j) (bias + d) ((M + d * 2 ^ mw) * 2 ^ j) = normalMagnitude mw bias M := by
  have hexp : (M + d * 2 ^ mw) * 2 ^ j / 2 ^ (mw + j) = M / 2 ^ mw + d := by
    rw [pow_add, Nat.mul_div_mul_right _ _ (by positivity), Nat.add_mul_div_right _ _ (by positivity)]
  have hman : (M + d * 2 ^ mw) * 2 ^ j % 2 ^ (mw + j) = M % 2 ^ mw * 2 ^ j := by
    rw [pow_add, Nat.mul_mod_mul_right, Nat.add_mul_mod_self_right]
  rw [normalMagnitude_eq_fraction, normalMagnitude_eq_fraction, hexp, hman, pow_add]
  congr 2
  · push_cast; ring
  · push_cast; field_simp

/-- A normal binary32 magnitude field and the binary64 one of the same number: 896 more in the exponent field, 29 zero
bits more in the mantissa. -/
theorem magnitude64_of_wideMagnitude_eq {M N : Nat} (hM : 2 ^ 23 ≤ M)
    (h : wideMagnitude 23 127 M = wideMagnitude 52 1023 N) : N = (M + 896 * 2 ^ 23) * 2 ^ 29 := by
  apply (wideMagnitude_strictMono 52 1023).injective
  rw [← h, wideMagnitude_of_ge _ _ hM, wideMagnitude_of_ge _ _ (by omega)]
  exact (normalMagnitude_widened 23 29 896 127 M).symm

/-- A nonzero number has one sign and one magnitude. -/
theorem sign_and_magnitude_of_eq {s t : Bool} {p q : ℚ} (hp : 0 < p) (hq : 0 ≤ q)
    (h : signFactor s * p = signFactor t * q) : s = t ∧ p = q := by
  cases s <;> cases t <;> simp only [signFactor_false, signFactor_true, one_mul, neg_one_mul] at h
  · exact ⟨rfl, h⟩
  · linarith
  · linarith
  · exact ⟨rfl, neg_inj.mp h⟩

theorem wideMagnitude_pos (mw : Nat) (bias : Int) {M : Nat} (hM : 0 < M) : 0 < wideMagnitude mw bias M :=
  (wideMagnitude_nonneg mw bias 0).trans_lt ((wideMagnitude_lt_iff mw bias 0 M).mpr hM)

/-- In range the two patterns have the same fields at the cut and above, and the same bit below it. -/
theorem enc32_eq_enc64_of_inRange {b : Bin32} {c : Bin64} {x : ℚ} (hr : inRange32 b = true) (hb : val32 b = some x)
    (hc : val64 c = some x) : enc32 b = enc64 c := by
  obtain ⟨hlo, hhi⟩ := (inRange32_iff b).mp hr
  obtain ⟨hlow, -⟩ := magnitude32_bounds_of_inRange hr
  obtain ⟨hs, hmag⟩ := sign_and_magnitude_of_eq (wideMagnitude_pos 23 127 (by omega)) (wideMagnitude_nonneg 52 1023 _)
    ((val32_eq_signed_wideMagnitude hb).symm.trans (val64_eq_signed_wideMagnitude hc))
  have hN := magnitude64_of_wideMagnitude_eq (by omega) hmag
  rw [sign32_eq, sign64_eq, decide_eq_decide] at hs
  have hr' : inRange64 c = true := by
    rw [inRange64_iff]; split at hlo <;> split <;> omega
  rw [enc32_of_inRange hr, enc64_of_inRange hr', Option.some_inj]
  apply BitVec.eq_of_toNat_eq
  rw [compose32_incremented32_toNat hr, compose64_incremented64_toNat hr']
  have hbl := b.isLt
  have hcl := c.isLt
  omega

/-- Settles O35: the tests are on the value alone, and in range the patterns differ in zero bits and bias only. -/
theorem lanesAgreeOnEqualValues : Obligations.LanesAgreeOnEqualValues := by
  intro b c h
  cases hb : val32 b with
  | none =>
    have hc : val64 c = none := h ▸ hb
    rw [val32_eq_none_iff] at hb
    rw [val64_eq_none_iff] at hc
    rw [enc32_of_magnitude_gt (by omega), enc64_of_magnitude_gt (by omega)]
  | some x =>
    have hc : val64 c = some x := h ▸ hb
    obtain hf | hd | ho | hr := operand32_cases b
    · rw [val32_of_notFinite hf] at hb; cases hb
    · rw [enc32_of_deadZone hd,
        enc64_of_deadZone ((deadZone64_iff_value hc).mpr ((deadZone32_iff_value hb).mp hd))]
    · obtain ⟨-, hgt⟩ := (outOfRange32_iff b).mp ho
      have hx : 511 * 2 ^ 55 < |x| := not_le.mp fun hle => hgt.not_ge ((abs_le_iff_magnitude32_le hb).mp hle)
      rw [enc32_of_outOfRange ho, enc64_of_abs_gt hc hx]
    · exact enc32_eq_enc64_of_inRange hr hb hc

/-- Settles O31: a word's pattern in the other lane has its value, and narrows back to it. -/
theorem representableValueNarrowsExactly : Obligations.RepresentableValueNarrowsExactly := by
  refine ⟨fun b w h => ?_, fun c w h => ?_, enc32_of_deadZone (by decide), enc64_of_deadZone (by decide)⟩
  · rw [lanesAgreeOnEqualValues b (dec64 w) (h.trans (val64_dec64 w).symm), enc64_dec64]
  · rw [← lanesAgreeOnEqualValues (dec32 w) c ((val32_dec32 w).trans h.symm), enc32_dec32]

/-! ## Monotonicity (R85) -/

/-- The number of the word a lane gives for magnitude field `M`: zero below the dead zone's bound `D`, then the field
rounded at the cut and re-biased by `d`. -/
def narrowedMagnitude (cut d D M : Nat) : ℚ :=
  if M < D then 0 else normalMagnitude 8 64 ((M + 2 ^ (cut - 1)) / 2 ^ cut - d * 2 ^ 8)

theorem narrowedMagnitude_of_lt (cut d : Nat) {D M : Nat} (h : M < D) : narrowedMagnitude cut d D M = 0 := if_pos h

theorem narrowedMagnitude_of_ge (cut d : Nat) {D M : Nat} (h : D ≤ M) :
    narrowedMagnitude cut d D M = normalMagnitude 8 64 ((M + 2 ^ (cut - 1)) / 2 ^ cut - d * 2 ^ 8) := if_neg h.not_gt

theorem narrowedMagnitude_nonneg (cut d D M : Nat) : 0 ≤ narrowedMagnitude cut d D M := by
  obtain hlt | hge := lt_or_ge M D
  · rw [narrowedMagnitude_of_lt _ _ hlt]
  · rw [narrowedMagnitude_of_ge _ _ hge]; exact (normalMagnitude_pos ..).le

/-- Rounding at the cut is monotone, and the dead zone is below every other magnitude. -/
theorem narrowedMagnitude_mono (cut d D : Nat) : Monotone (narrowedMagnitude cut d D) := by
  intro M N hMN
  obtain hlt | hge := lt_or_ge M D
  · rw [narrowedMagnitude_of_lt _ _ hlt]; exact narrowedMagnitude_nonneg ..
  · rw [narrowedMagnitude_of_ge _ _ hge, narrowedMagnitude_of_ge _ _ (hge.trans hMN)]
    apply (normalMagnitude_strictMono 8 64).monotone
    gcongr

/-- A map of magnitudes that is monotone for each sign and keeps zero is monotone on signed numbers. -/
theorem signed_mono_of_signed_wideMagnitude_le {mw : Nat} {bias : Int} {g : Bool → Nat → ℚ}
    (hmono : ∀ s, Monotone (g s)) (hzero : ∀ s, g s 0 = 0) {s t : Bool} {M N : Nat}
    (h : signFactor s * wideMagnitude mw bias M ≤ signFactor t * wideMagnitude mw bias N) :
    signFactor s * g s M ≤ signFactor t * g t N := by
  have hnonneg : ∀ s K, 0 ≤ g s K := fun s K => hzero s ▸ hmono s K.zero_le
  have hle : ∀ K L, wideMagnitude mw bias K ≤ wideMagnitude mw bias L ↔ K ≤ L :=
    fun _ _ => (wideMagnitude_strictMono mw bias).le_iff_le
  cases s <;> cases t <;> simp only [signFactor_false, signFactor_true, one_mul, neg_one_mul, neg_le_neg_iff, hle] at h ⊢
  case false.false => exact hmono false h
  case true.true => exact hmono true h
  case true.false => linarith [hnonneg true M, hnonneg false N]
  case false.true =>
    have hM : M = 0 := by
      by_contra hne
      linarith [wideMagnitude_pos mw bias (Nat.pos_of_ne_zero hne), wideMagnitude_nonneg mw bias N]
    have hN : N = 0 := by
      by_contra hne
      linarith [wideMagnitude_pos mw bias (Nat.pos_of_ne_zero hne), wideMagnitude_nonneg mw bias M]
    rw [hM, hN, hzero, hzero, neg_zero]

/-- A nonzero word's value from the two parts of its number. -/
theorem val16_of_toNat_eq {w : F16} {s : Bool} {K : Nat} (hK : K < 2 ^ 15) (hpos : s = false → 0 < K)
    (h : w.toNat = s.toNat * 2 ^ 15 + K) : val16 w = signFactor s * normalMagnitude 8 64 K := by
  cases s with
  | false =>
    have hpos := hpos rfl
    simp only [Bool.toNat_false, zero_mul, zero_add] at h
    have hz : w ≠ 0x0000#16 := by rintro rfl; rw [BitVec.toNat_ofNat] at h; omega
    rw [val16_of_sign_false (by rw [sign16_eq, decide_eq_false_iff_not]; omega) hz, h, signFactor_false, one_mul]
  | true =>
    simp only [Bool.toNat_true, one_mul] at h
    rw [val16_of_sign_true (by rw [sign16_eq, decide_eq_true_iff]; omega), h, Nat.add_sub_cancel_left, signFactor_true,
      neg_one_mul]

theorem toNat_sign32 (b : Bin32) : (sign32 b).toNat = b.toNat / 2 ^ 31 := by
  have hb := b.isLt
  rw [sign32, BitVec.getLsbD, Nat.toNat_testBit]; omega

theorem toNat_sign64 (b : Bin64) : (sign64 b).toNat = b.toNat / 2 ^ 63 := by
  have hb := b.isLt
  rw [sign64, BitVec.getLsbD, Nat.toNat_testBit]; omega

theorem deadZone32_iff_lt_bound (b : Bin32) :
    deadZone32 b = true ↔ b.toNat % 2 ^ 31 < (deadZoneBound32 (sign32 b)).toNat := by
  rw [deadZone32, BitVec.ult, decide_eq_true_iff, mag32_toNat]

theorem deadZone64_iff_lt_bound (b : Bin64) :
    deadZone64 b = true ↔ b.toNat % 2 ^ 63 < (deadZoneBound64 (sign64 b)).toNat := by
  rw [deadZone64, BitVec.ult, decide_eq_true_iff, mag64_toNat]

/-- The value of the word the 32-bit lane gives. -/
theorem val16_of_enc32_eq_some {b : Bin32} {w : F16} (h : enc32 b = some w) :
    val16 w =
      signFactor (sign32 b) * narrowedMagnitude 15 63 (deadZoneBound32 (sign32 b)).toNat (b.toNat % 2 ^ 31) := by
  obtain ⟨hd, rfl⟩ | ⟨hr, rfl⟩ := enc32_eq_some_cases h
  · rw [narrowedMagnitude_of_lt _ _ ((deadZone32_iff_lt_bound b).mp hd), mul_zero, val16_zero]
  · obtain ⟨hlo, hhi⟩ := (inRange32_iff b).mp hr
    have hd : ¬ deadZone32 b = true := by rw [deadZone32_iff]; omega
    rw [narrowedMagnitude_of_ge _ _ (not_lt.mp (mt (deadZone32_iff_lt_bound b).mpr hd))]
    refine val16_of_toNat_eq (by omega) (fun hs => ?_) (by rw [compose32_incremented32_toNat hr, toNat_sign32])
    rw [sign32_eq, decide_eq_false_iff_not] at hs
    rw [if_neg hs] at hlo; omega

/-- The value of the word the 64-bit lane gives. -/
theorem val16_of_enc64_eq_some {b : Bin64} {w : F16} (h : enc64 b = some w) :
    val16 w =
      signFactor (sign64 b) * narrowedMagnitude 44 959 (deadZoneBound64 (sign64 b)).toNat (b.toNat % 2 ^ 63) := by
  obtain ⟨hd, rfl⟩ | ⟨hr, rfl⟩ := enc64_eq_some_cases h
  · rw [narrowedMagnitude_of_lt _ _ ((deadZone64_iff_lt_bound b).mp hd), mul_zero, val16_zero]
  · obtain ⟨hlo, hhi⟩ := (inRange64_iff b).mp hr
    have hd : ¬ deadZone64 b = true := by rw [deadZone64_iff]; omega
    rw [narrowedMagnitude_of_ge _ _ (not_lt.mp (mt (deadZone64_iff_lt_bound b).mpr hd))]
    refine val16_of_toNat_eq (by omega) (fun hs => ?_) (by rw [compose64_incremented64_toNat hr, toNat_sign64])
    rw [sign64_eq, decide_eq_false_iff_not] at hs
    rw [if_neg hs] at hlo; omega

/-- Settles O36: each lane keeps the sign and maps magnitudes monotonely. -/
theorem narrowingIsMonotone : Obligations.NarrowingIsMonotone := by
  constructor
  · intro a b x y v w ha hb hxy hv hw
    rw [val32_eq_signed_wideMagnitude ha, val32_eq_signed_wideMagnitude hb] at hxy
    rw [val16_of_enc32_eq_some hv, val16_of_enc32_eq_some hw]
    exact signed_mono_of_signed_wideMagnitude_le (g := fun s => narrowedMagnitude 15 63 (deadZoneBound32 s).toNat)
      (fun _ => narrowedMagnitude_mono ..) (fun s => narrowedMagnitude_of_lt _ _ (by cases s <;> decide)) hxy
  · intro a b x y v w ha hb hxy hv hw
    rw [val64_eq_signed_wideMagnitude ha, val64_eq_signed_wideMagnitude hb] at hxy
    rw [val16_of_enc64_eq_some hv, val16_of_enc64_eq_some hw]
    exact signed_mono_of_signed_wideMagnitude_le (g := fun s => narrowedMagnitude 44 959 (deadZoneBound64 s).toNat)
      (fun _ => narrowedMagnitude_mono ..) (fun s => narrowedMagnitude_of_lt _ _ (by cases s <;> decide)) hxy

end Sys2Proof.Machine
end

section
/-! Proofs of the statements about the conversion failure (60_exceptions.md R90, R91). Only the two narrowings can end without
a result, and each does so exactly beyond `MAX`'s magnitude, where the patterns that are not finite stand too. -/

namespace Sys2Proof.Machine

/-! ## Which operations can fail (R90) -/

/-- An operation that is no narrowing ends with `return v` (R9). -/
theorem exec_takes_result_or_narrows (i : Instr) (s : State) :
    (∃ t d, exec i s = .next t ∧ t.taken = some (.result d)) ∨ (∃ b, i = .enc32 b) ∨ (∃ b, i = .enc64 b) := by
  cases i with
  | enc32 b => exact .inr (.inl ⟨b, rfl⟩)
  | enc64 b => exact .inr (.inr ⟨b, rfl⟩)
  | _ => exact .inl ⟨_, _, rfl, rfl⟩

/-- Settles O37: an operation takes a result or is a narrowing, and a result is not the failure. -/
theorem onlyNarrowingFails : Obligations.OnlyNarrowingFails := by
  constructor
  · intro i s h32 h64
    obtain hresult | ⟨b, hb⟩ | ⟨b, hb⟩ := exec_takes_result_or_narrows i s
    · exact hresult
    · exact absurd hb (h32 b)
    · exact absurd hb (h64 b)
  · intro i s t ht hfail
    obtain ⟨u, d, hu, hd⟩ | hnarrows := exec_takes_result_or_narrows i s
    · obtain rfl := Host.Outcome.next.inj (ht.symm.trans hu)
      cases hfail.symm.trans hd
    · exact hnarrows

/-! ## The failure as one comparison of the magnitude (R91) -/

theorem magnitude32_gt_of_notFinite {b : Bin32} (h : notFinite32 b = true) : 0x5F7F8000 < b.toNat % 2 ^ 31 := by
  rw [notFinite32_iff] at h; omega

theorem magnitude64_gt_of_notFinite {b : Bin64} (h : notFinite64 b = true) : 0x43EFF00000000000 < b.toNat % 2 ^ 63 := by
  rw [notFinite64_iff] at h; omega

theorem enc32_eq_none_iff (b : Bin32) : enc32 b = none ↔ 0x5F7F8000 < b.toNat % 2 ^ 31 := by
  refine ⟨fun h => ?_, enc32_of_magnitude_gt⟩
  obtain hf | hd | ho | hr := operand32_cases b
  · exact magnitude32_gt_of_notFinite hf
  · rw [enc32_of_deadZone hd] at h; cases h
  · exact ((outOfRange32_iff b).mp ho).2
  · rw [enc32_of_inRange hr] at h; cases h

theorem enc64_eq_none_iff (b : Bin64) : enc64 b = none ↔ 0x43EFF00000000000 < b.toNat % 2 ^ 63 := by
  refine ⟨fun h => ?_, enc64_of_magnitude_gt⟩
  obtain hf | hd | ho | hr := operand64_cases b
  · exact magnitude64_gt_of_notFinite hf
  · rw [enc64_of_deadZone hd] at h; cases h
  · exact ((outOfRange64_iff b).mp ho).2
  · rw [enc64_of_inRange hr] at h; cases h

/-- The 32-bit lane completes, and takes the failure exactly beyond `MAX`'s magnitude. -/
theorem exec_enc32_takes_failure_iff (b : Bin32) (s : State) : ∃ t, exec (.enc32 b) s = .next t ∧
    (t.taken = some .conversionFailure ↔ 0x5F7F8000 < b.toNat % 2 ^ 31) := by
  rw [← enc32_eq_none_iff]
  cases h : enc32 b with
  | none => obtain ⟨t, ht, htaken, -⟩ := exec_enc32_of_eq_none h s; exact ⟨t, ht, by simp [htaken]⟩
  | some w => obtain ⟨t, ht, htaken, -⟩ := exec_enc32_of_eq_some h s; exact ⟨t, ht, by simp [htaken]⟩

/-- The 64-bit lane completes, and takes the failure exactly beyond `MAX`'s magnitude. -/
theorem exec_enc64_takes_failure_iff (b : Bin64) (s : State) : ∃ t, exec (.enc64 b) s = .next t ∧
    (t.taken = some .conversionFailure ↔ 0x43EFF00000000000 < b.toNat % 2 ^ 63) := by
  rw [← enc64_eq_none_iff]
  cases h : enc64 b with
  | none => obtain ⟨t, ht, htaken, -⟩ := exec_enc64_of_eq_none h s; exact ⟨t, ht, by simp [htaken]⟩
  | some w => obtain ⟨t, ht, htaken, -⟩ := exec_enc64_of_eq_some h s; exact ⟨t, ht, by simp [htaken]⟩

/-! ## The two causes (R91) -/

/-- The causes by value in the 32-bit lane: no value at all, or one beyond `MAX`'s. -/
theorem magnitude32_gt_iff_value (b : Bin32) :
    0x5F7F8000 < b.toNat % 2 ^ 31 ↔ val32 b = none ∨ ∃ x, val32 b = some x ∧ 511 * 2 ^ 55 < |x| := by
  cases h : val32 b with
  | none => have hm := (val32_eq_none_iff b).mp h; exact iff_of_true (by omega) (.inl rfl)
  | some x =>
    simp only [reduceCtorEq, false_or, Option.some.injEq, exists_eq_left']
    exact lt_iff_lt_of_le_iff_le (abs_le_iff_magnitude32_le h).symm

/-- The causes by value in the 64-bit lane: no value at all, or one beyond `MAX`'s. -/
theorem magnitude64_gt_iff_value (b : Bin64) :
    0x43EFF00000000000 < b.toNat % 2 ^ 63 ↔ val64 b = none ∨ ∃ x, val64 b = some x ∧ 511 * 2 ^ 55 < |x| := by
  cases h : val64 b with
  | none => have hm := (val64_eq_none_iff b).mp h; exact iff_of_true (by omega) (.inl rfl)
  | some x =>
    simp only [reduceCtorEq, false_or, Option.some.injEq, exists_eq_left']
    exact lt_iff_lt_of_le_iff_le (abs_le_iff_magnitude64_le h).symm

/-- The causes by field in the 32-bit lane: an all-ones exponent field lies beyond `MAX`'s magnitude too. -/
theorem magnitude32_gt_iff_fields (b : Bin32) :
    0x5F7F8000 < b.toNat % 2 ^ 31 ↔
      expField32 b = 0xFF#8 ∨ (expField32 b ≠ 0xFF#8 ∧ 0x5F7F8000 < b.toNat % 2 ^ 31) := by
  have hinf : expField32 b = 0xFF#8 → 0x5F7F8000 < b.toNat % 2 ^ 31 :=
    fun he => magnitude32_gt_of_notFinite (beq_iff_eq.mpr he)
  tauto

/-- The causes by field in the 64-bit lane: an all-ones exponent field lies beyond `MAX`'s magnitude too. -/
theorem magnitude64_gt_iff_fields (b : Bin64) :
    0x43EFF00000000000 < b.toNat % 2 ^ 63 ↔
      expField64 b = 0x7FF#11 ∨ (expField64 b ≠ 0x7FF#11 ∧ 0x43EFF00000000000 < b.toNat % 2 ^ 63) := by
  have hinf : expField64 b = 0x7FF#11 → 0x43EFF00000000000 < b.toNat % 2 ^ 63 :=
    fun he => magnitude64_gt_of_notFinite (beq_iff_eq.mpr he)
  tauto

/-- Settles O38: each form of the causes is the comparison of the magnitude with `MAX`'s. -/
theorem failureHasExactlyTwoCauses : Obligations.FailureHasExactlyTwoCauses := by
  constructor
  · intro b s
    obtain ⟨t, ht, hfail⟩ := exec_enc32_takes_failure_iff b s
    exact ⟨t, ht, hfail.trans (magnitude32_gt_iff_value b), hfail.trans (magnitude32_gt_iff_fields b), hfail⟩
  · intro b s
    obtain ⟨t, ht, hfail⟩ := exec_enc64_takes_failure_iff b s
    exact ⟨t, ht, hfail.trans (magnitude64_gt_iff_value b), hfail.trans (magnitude64_gt_iff_fields b), hfail⟩

end Sys2Proof.Machine
end

section
/-! Proofs of the statements about the transaction word (30_encoding.md R43 to R45, R47): what the decoder answers with, the
round trips, and the rows of the operation table. -/

namespace Sys2Proof.Machine

/-! ## The round trip from an operation (R43, R47) -/

/-- The encoder puts an operation's index and operand where the decoder reads them. -/
theorem decode_encode (i : Instr) : decode (encode i) = .ok i.expand := by
  cases i <;> simp [decode, encode, Instr.expand]

/-- Only pseudo-operations have an expansion other than themselves (R47). -/
theorem expand_of_wellFormed {i : Instr} (h : i.wellFormed = true) : i.expand = i := by
  cases i with
  | constZero | constMax | constMin | constMinPositive | constMaxNegative => cases h
  | _ => rfl

/-- Settles O4: the decoder reads the encoder's fields back, and a format-`T` operation is its own expansion. -/
theorem decodeOfEncodeIsExpansion : Obligations.DecodeOfEncodeIsExpansion :=
  ⟨decode_encode, fun i hi => by rw [decode_encode, expand_of_wellFormed hi]⟩

/-! ## What the decoder answers with (R43, R45) -/

/-- The operation `i` is the one that the word `t` carries: its index in `op`, its operand in the low bits of `din` (R43,
R44). -/
inductive Carries (t : TxnWord) : Instr → Prop where
  | fromBits (h : opField t = 0x0#4) : Carries t (.fromBits (operand16 (dinField t)))
  | toBits (h : opField t = 0x1#4) : Carries t (.toBits (operand16 (dinField t)))
  | signBit (h : opField t = 0x2#4) : Carries t (.signBit (operand16 (dinField t)))
  | biasedExponent (h : opField t = 0x3#4) : Carries t (.biasedExponent (operand16 (dinField t)))
  | exponent (h : opField t = 0x4#4) : Carries t (.exponent (operand16 (dinField t)))
  | mantissaBits (h : opField t = 0x5#4) : Carries t (.mantissaBits (operand16 (dinField t)))
  | dec32 (h : opField t = 0x6#4) : Carries t (.dec32 (operand16 (dinField t)))
  | dec64 (h : opField t = 0x7#4) : Carries t (.dec64 (operand16 (dinField t)))
  | enc32 (h : opField t = 0x8#4) : Carries t (.enc32 (operand32 (dinField t)))
  | enc64 (h : opField t = 0x9#4) : Carries t (.enc64 (operand64 (dinField t)))

/-- The decoder's two answers: the operation the word carries, its index assigned, or the rejection of a reserved index. -/
theorem decode_cases (t : TxnWord) :
    ((opField t).toNat < 10 ∧ ∃ i, decode t = .ok i ∧ Carries t i) ∨
    (10 ≤ (opField t).toNat ∧ decode t = .error (.reservedOperation (opField t))) := by
  unfold decode
  split
  next h => exact .inl ⟨by omega, _, rfl, .fromBits (BitVec.eq_of_toNat_eq h)⟩
  next h => exact .inl ⟨by omega, _, rfl, .toBits (BitVec.eq_of_toNat_eq h)⟩
  next h => exact .inl ⟨by omega, _, rfl, .signBit (BitVec.eq_of_toNat_eq h)⟩
  next h => exact .inl ⟨by omega, _, rfl, .biasedExponent (BitVec.eq_of_toNat_eq h)⟩
  next h => exact .inl ⟨by omega, _, rfl, .exponent (BitVec.eq_of_toNat_eq h)⟩
  next h => exact .inl ⟨by omega, _, rfl, .mantissaBits (BitVec.eq_of_toNat_eq h)⟩
  next h => exact .inl ⟨by omega, _, rfl, .dec32 (BitVec.eq_of_toNat_eq h)⟩
  next h => exact .inl ⟨by omega, _, rfl, .dec64 (BitVec.eq_of_toNat_eq h)⟩
  next h => exact .inl ⟨by omega, _, rfl, .enc32 (BitVec.eq_of_toNat_eq h)⟩
  next h => exact .inl ⟨by omega, _, rfl, .enc64 (BitVec.eq_of_toNat_eq h)⟩
  next => refine .inr ⟨?_, rfl⟩; simp only [imp_false] at *; omega

theorem exists_decode_of_lt {t : TxnWord} (h : (opField t).toNat < 10) : ∃ i, decode t = .ok i := by
  obtain ⟨-, i, hi, -⟩ | ⟨hge, -⟩ := decode_cases t
  · exact ⟨i, hi⟩
  · omega

theorem decode_of_reserved {t : TxnWord} (h : 10 ≤ (opField t).toNat) :
    decode t = .error (.reservedOperation (opField t)) := by
  obtain ⟨hlt, -⟩ | ⟨-, herr⟩ := decode_cases t
  · omega
  · exact herr

theorem carries_of_decode {t : TxnWord} {i : Instr} (h : decode t = .ok i) : Carries t i := by
  obtain ⟨-, j, hj, hcarries⟩ | ⟨-, herr⟩ := decode_cases t
  · exact Except.ok.inj (hj.symm.trans h) ▸ hcarries
  · cases herr.symm.trans h

theorem opField_lt_of_decode {t : TxnWord} {i : Instr} (h : decode t = .ok i) : (opField t).toNat < 10 := by
  obtain ⟨hlt, -⟩ | ⟨-, herr⟩ := decode_cases t
  · exact hlt
  · cases herr.symm.trans h

/-! ## The round trip from a word (R44) -/

theorem operand16_toNat (din : BitVec 64) : (operand16 din).toNat = din.toNat % 2 ^ 16 := by
  rw [operand16, BitVec.extractLsb'_toNat, Nat.shiftRight_zero]

theorem operand32_toNat (din : BitVec 64) : (operand32 din).toNat = din.toNat % 2 ^ 32 := by
  rw [operand32, BitVec.extractLsb'_toNat, Nat.shiftRight_zero]

/-- What a word's operation keeps of the word: its index, and its operand without the ignored bits. -/
def Restores (i : Instr) (t : TxnWord) : Prop :=
  i.wellFormed = true ∧ opField (encode i) = opField t ∧
  (dinField (encode i)).toNat = (dinField t).toNat % 2 ^ i.operandWidth

/-- An operation written with the word's index and an operand whose number is that of the low bits restores the word. -/
theorem restores_of_encode_eq {i : Instr} {t : TxnWord} {op : BitVec 4} {din : BitVec 64} (hwf : i.wellFormed = true)
    (he : encode i = mkTxn op din) (hop : opField t = op) (hdin : din.toNat = (dinField t).toNat % 2 ^ i.operandWidth) :
    Restores i t :=
  ⟨hwf, by rw [he, opField_mkTxn, hop], by rw [he, dinField_mkTxn, hdin]⟩

theorem operand16_setWidth_toNat (din : BitVec 64) : ((operand16 din).setWidth 64).toNat = din.toNat % 2 ^ 16 := by
  rw [BitVec.toNat_setWidth, operand16_toNat]; omega

theorem operand32_setWidth_toNat (din : BitVec 64) : ((operand32 din).setWidth 64).toNat = din.toNat % 2 ^ 32 := by
  rw [BitVec.toNat_setWidth, operand32_toNat]; omega

theorem restores_of_carries {t : TxnWord} {i : Instr} (h : Carries t i) : Restores i t := by
  cases h with
  | enc32 h => exact restores_of_encode_eq rfl rfl h (operand32_setWidth_toNat _)
  | enc64 h => exact restores_of_encode_eq rfl rfl h (Nat.mod_eq_of_lt (dinField t).isLt).symm
  | _ h => exact restores_of_encode_eq rfl rfl h (operand16_setWidth_toNat _)

/-- Settles O5: an operation that a word carries is written back into the fields it came from. -/
theorem encodeOfDecodeRestoresWord : Obligations.EncodeOfDecodeRestoresWord :=
  fun _ _ h => restores_of_carries (carries_of_decode h)

/-! ## Ignored bits (R44) -/

/-- The index alone gives the operand's width (R43). -/
theorem operandWidth_of_carries {t : TxnWord} {i : Instr} (h : Carries t i) :
    i.operandWidth = if (opField t).toNat ≤ 7 then 16 else if (opField t).toNat = 8 then 32 else 64 := by
  cases h with
  | _ h => rw [h]; rfl

/-- Format-`T` operations have different words. -/
theorem eq_of_encode_eq {i j : Instr} (hi : i.wellFormed = true) (hj : j.wellFormed = true) (h : encode i = encode j) :
    i = j := by
  have hdec : decode (encode i) = decode (encode j) := by rw [h]
  rw [decode_encode, decode_encode, expand_of_wellFormed hi, expand_of_wellFormed hj] at hdec
  exact Except.ok.inj hdec

/-- Words that agree in index and operand decode alike, because both are restored to the same word. -/
theorem decode_eq_of_operand_eq {t t' : TxnWord} {n : Nat} (hop : opField t = opField t')
    (hn : n = if (opField t).toNat ≤ 7 then 16 else if (opField t).toNat = 8 then 32 else 64)
    (hdin : (dinField t).toNat % 2 ^ n = (dinField t').toNat % 2 ^ n) : decode t = decode t' := by
  obtain ⟨hlt, i, hi, hc⟩ | ⟨hge, herr⟩ := decode_cases t
  · obtain ⟨j, hj⟩ := exists_decode_of_lt (hop ▸ hlt)
    have hc' := carries_of_decode hj
    have hwi : i.operandWidth = n := (operandWidth_of_carries hc).trans hn.symm
    have hwj : j.operandWidth = n := (operandWidth_of_carries hc').trans (hop ▸ hn.symm)
    obtain ⟨hwf, hopi, hdini⟩ := restores_of_carries hc
    obtain ⟨hwf', hopj, hdinj⟩ := restores_of_carries hc'
    have hdinij : dinField (encode i) = dinField (encode j) :=
      BitVec.eq_of_toNat_eq (by rw [hdini, hdinj, hwi, hwj, hdin])
    have hij : i = j := eq_of_encode_eq hwf hwf' (by
      rw [← mkTxn_fields (encode i), ← mkTxn_fields (encode j), hopi, hopj, hop, hdinij])
    rw [hi, hj, hij]
  · rw [herr, decode_of_reserved (hop ▸ hge), hop]

/-! ## The rows of the operation table (R43, R47) -/

theorem mkTxn_inj {op op' : BitVec 4} {din din' : BitVec 64} : mkTxn op din = mkTxn op' din' ↔ op = op' ∧ din = din' := by
  refine ⟨fun h => ⟨?_, ?_⟩, fun ⟨hop, hdin⟩ => by rw [hop, hdin]⟩
  · rw [← opField_mkTxn op din, h, opField_mkTxn]
  · rw [← dinField_mkTxn op din, h, dinField_mkTxn]

/-- A row tests the two fields of a word apart. -/
theorem selects_iff (r : OpRow) (t : TxnWord) :
    r.selects t = true ↔ opField t &&& opField r.mask = opField r.matchBits ∧
      dinField t &&& dinField r.mask = dinField r.matchBits := by
  have hand : t &&& r.mask = mkTxn (opField t &&& opField r.mask) (dinField t &&& dinField r.mask) := by
    rw [mkTxn, ← BitVec.and_append]
    exact congrArg₂ (· &&& ·) (mkTxn_fields t).symm (mkTxn_fields r.mask).symm
  rw [OpRow.selects, beq_iff_eq, hand, ← mkTxn_inj, mkTxn_fields]

/-- A format-`T` row tests the whole index and nothing else. -/
theorem formatTRows_fields : ∀ r ∈ formatTRows,
    opField r.mask = BitVec.allOnes 4 ∧ dinField r.mask = 0#64 ∧ dinField r.matchBits = 0#64 ∧
    (opField r.matchBits).toNat < 10 := by decide

theorem formatTRow_eq_of_opField_eq : ∀ r ∈ formatTRows, ∀ r' ∈ formatTRows,
    opField r.matchBits = opField r'.matchBits → r = r' := by decide

theorem formatTRow_eq_of_mnemonic_eq : ∀ r ∈ formatTRows, ∀ r' ∈ formatTRows,
    r.mnemonic = r'.mnemonic → r = r' := by decide

theorem formatTRow_selects_iff {r : OpRow} (hr : r ∈ formatTRows) (t : TxnWord) :
    r.selects t = true ↔ opField t = opField r.matchBits := by
  obtain ⟨hmask, hdmask, hdin, -⟩ := formatTRows_fields r hr
  rw [selects_iff, hmask, hdmask, hdin, BitVec.and_allOnes, BitVec.and_zero, and_iff_left rfl]

/-- The row at the index a word carries has the mnemonic of the word's operation. -/
theorem exists_formatTRow_of_carries {t : TxnWord} {i : Instr} (h : Carries t i) :
    ∃ r ∈ formatTRows, opField t = opField r.matchBits ∧ i.mnemonic = r.mnemonic := by
  cases h with
  | fromBits h => exact ⟨_, List.getElem_mem (n := 0) (by decide), h.trans (by decide), rfl⟩
  | toBits h => exact ⟨_, List.getElem_mem (n := 1) (by decide), h.trans (by decide), rfl⟩
  | signBit h => exact ⟨_, List.getElem_mem (n := 2) (by decide), h.trans (by decide), rfl⟩
  | biasedExponent h => exact ⟨_, List.getElem_mem (n := 3) (by decide), h.trans (by decide), rfl⟩
  | exponent h => exact ⟨_, List.getElem_mem (n := 4) (by decide), h.trans (by decide), rfl⟩
  | mantissaBits h => exact ⟨_, List.getElem_mem (n := 5) (by decide), h.trans (by decide), rfl⟩
  | dec32 h => exact ⟨_, List.getElem_mem (n := 6) (by decide), h.trans (by decide), rfl⟩
  | dec64 h => exact ⟨_, List.getElem_mem (n := 7) (by decide), h.trans (by decide), rfl⟩
  | enc32 h => exact ⟨_, List.getElem_mem (n := 8) (by decide), h.trans (by decide), rfl⟩
  | enc64 h => exact ⟨_, List.getElem_mem (n := 9) (by decide), h.trans (by decide), rfl⟩

/-- Indices tell the format-`T` rows apart, and so do mnemonics. -/
theorem formatTRow_selects_iff_mnemonic {r : OpRow} (hr : r ∈ formatTRows) (t : TxnWord) :
    r.selects t = true ↔ ∃ i, decode t = .ok i ∧ i.mnemonic = r.mnemonic := by
  rw [formatTRow_selects_iff hr]
  constructor
  · intro hop
    obtain ⟨-, -, -, hlt⟩ := formatTRows_fields r hr
    obtain ⟨i, hi⟩ := exists_decode_of_lt (hop ▸ hlt)
    obtain ⟨r', hr', hop', hname⟩ := exists_formatTRow_of_carries (carries_of_decode hi)
    obtain rfl := formatTRow_eq_of_opField_eq r hr r' hr' (hop.symm.trans hop')
    exact ⟨i, hi, hname⟩
  · rintro ⟨i, hi, hname⟩
    obtain ⟨r', hr', hop', hname'⟩ := exists_formatTRow_of_carries (carries_of_decode hi)
    obtain rfl := formatTRow_eq_of_mnemonic_eq r hr r' hr' (hname.symm.trans hname')
    exact hop'

/-- A row that tests the index `FROM_BITS` and the sixteen operand bits selects `FROM_BITS` of its literal alone. -/
theorem decode_of_selects_literal {r : OpRow} {w : F16} (hmask : r.mask = mkTxn 0xF#4 0xFFFF#64)
    (hmatch : r.matchBits = mkTxn 0x0#4 (w.setWidth 64)) {t : TxnWord} (h : r.selects t = true) :
    decode t = .ok (.fromBits w) := by
  rw [selects_iff, hmask, hmatch, opField_mkTxn, opField_mkTxn, dinField_mkTxn, dinField_mkTxn] at h
  obtain ⟨hop, hdin⟩ := h
  have hop : opField t = 0x0#4 := (BitVec.and_allOnes (x := opField t)).symm.trans hop
  have hw : operand16 (dinField t) = w := by
    apply BitVec.eq_of_toNat_eq
    have hn := congrArg BitVec.toNat hdin
    rw [BitVec.toNat_and, show (0xFFFF#64).toNat = 2 ^ 16 - 1 from rfl, Nat.and_two_pow_sub_one_eq_mod,
      BitVec.toNat_setWidth] at hn
    have hlt := w.isLt
    rw [operand16_toNat, hn]; omega
  rw [decode, hop, hw]; rfl

/-- Each `PSEUDO` row selects the expansion of its pseudo-operation (R47). -/
theorem exists_decode_of_pseudoRow_selects {r : OpRow} (hr : r ∈ pseudoRows) {t : TxnWord} (h : r.selects t = true) :
    ∃ i : Instr, i.mnemonic = r.mnemonic ∧ decode t = .ok i.expand := by
  simp only [pseudoRows, List.mem_cons, List.not_mem_nil, or_false] at hr
  obtain rfl | rfl | rfl | rfl | rfl := hr
  · exact ⟨.constZero, rfl, decode_of_selects_literal (by decide) (by decide) h⟩
  · exact ⟨.constMax, rfl, decode_of_selects_literal (by decide) (by decide) h⟩
  · exact ⟨.constMin, rfl, decode_of_selects_literal (by decide) (by decide) h⟩
  · exact ⟨.constMinPositive, rfl, decode_of_selects_literal (by decide) (by decide) h⟩
  · exact ⟨.constMaxNegative, rfl, decode_of_selects_literal (by decide) (by decide) h⟩

/-- Settles O7: a row tests the fields the decoder reads. -/
theorem tableRowSelectsItsOperation : Obligations.TableRowSelectsItsOperation := by
  refine ⟨fun t r hr => formatTRow_selects_iff_mnemonic hr t, fun t r r' hr hr' h h' => ?_,
    fun t r hr h => exists_decode_of_pseudoRow_selects hr h⟩
  rw [formatTRow_selects_iff hr] at h
  rw [formatTRow_selects_iff hr'] at h'
  exact formatTRow_eq_of_opField_eq r hr r' hr' (h.symm.trans h')

/-- Settles O8: the decoder is run on each word. -/
theorem writtenOutWordsDecode : Obligations.WrittenOutWordsDecode := by
  refine ⟨?_, ?_, ?_, ?_, ?_, ?_, ?_⟩ <;> decide

end Sys2Proof.Machine
end

section
/-! Proofs of the statements about steps and the whole block (10_state.md, 60_exceptions.md R97, 70_reset_and_hazards.md). An
operation drives its unit's input port and takes an outcome that is a function of the operation alone. -/

namespace Sys2Proof.Machine

/-! ## An operation is a drive and an outcome (R10, R15) -/

/-- The host drives an operation's operand on the input port of its unit (R15); a pseudo-operation's operand is its
literal. -/
def State.driveOperand : Instr → State → State
  | .fromBits w | .toBits w | .signBit w | .biasedExponent w | .exponent w | .mantissaBits w => State.driveFx w
  | .dec32 w | .dec64 w => State.driveDec w
  | .enc32 b => State.driveEnc32 b
  | .enc64 b => State.driveEnc64 b
  | .constZero => State.driveFx f16Zero
  | .constMax => State.driveFx f16Max
  | .constMin => State.driveFx f16Min
  | .constMinPositive => State.driveFx f16MinPositive
  | .constMaxNegative => State.driveFx f16MaxNegative

/-- The outcome of a narrowing's word, or of its absence (R82). -/
def narrowingOutcome : Option F16 → TxnOutcome
  | some w => .result (doutOf w)
  | none => .conversionFailure

/-- The outcome of an operation: of its operand alone (R10). -/
def outcomeOf : Instr → TxnOutcome
  | .fromBits w => .result (doutOf (fromBits w))
  | .toBits w => .result (doutOf (toBits w))
  | .signBit w => .result (doutOf (signBit w))
  | .biasedExponent w => .result (doutOf (biasedExponent w))
  | .exponent w => .result (doutOf (exponentWord w))
  | .mantissaBits w => .result (doutOf (mantissaBits w))
  | .dec32 w => .result (doutOf (dec32 w))
  | .dec64 w => .result (doutOf (dec64 w))
  | .enc32 b => narrowingOutcome (enc32 b)
  | .enc64 b => narrowingOutcome (enc64 b)
  | .constZero => .result (doutOf f16Zero)
  | .constMax => .result (doutOf f16Max)
  | .constMin => .result (doutOf f16Min)
  | .constMinPositive => .result (doutOf f16MinPositive)
  | .constMaxNegative => .result (doutOf f16MaxNegative)

/-- The state after an operation: its operand driven, its outcome taken. -/
def State.perform (i : Instr) (s : State) : State := { s.driveOperand i with taken := some (outcomeOf i) }

theorem State.endNarrowing_eq (r : Option F16) (s : State) :
    s.endNarrowing r = { s with taken := some (narrowingOutcome r) } := by cases r <;> rfl

/-- Every operation answers the next state that it performs. -/
theorem exec_eq_perform (i : Instr) (s : State) : exec i s = .next (s.perform i) := by
  cases i with
  | enc32 b => exact congrArg _ (State.endNarrowing_eq (enc32 b) _)
  | enc64 b => exact congrArg _ (State.endNarrowing_eq (enc64 b) _)
  | _ => rfl

theorem eq_perform_of_exec {i : Instr} {s t : State} (h : exec i s = .next t) : t = s.perform i :=
  (Host.Outcome.next.inj ((exec_eq_perform i s).symm.trans h)).symm

@[simp] theorem State.perform_taken (i : Instr) (s : State) : (s.perform i).taken = some (outcomeOf i) := rfl

@[simp] theorem State.perform_txn (i : Instr) (s : State) : (s.perform i).txn = s.txn := by cases i <;> rfl

/-- Driving a driven port and taking a taken outcome change nothing (R23). -/
@[simp] theorem State.perform_perform (i : Instr) (s : State) : (s.perform i).perform i = s.perform i := by
  cases i <;> rfl

/-! ## What a step does (R43, R45, R107) -/

theorem step_of_decode {s : State} {t : TxnWord} {i : Instr} (ht : s.txn = some t) (hi : decode t = .ok i) :
    step s = exec i s := by simp [step, ht, hi]

theorem step_of_reserved {s : State} {t : TxnWord} {op : BitVec 4} (ht : s.txn = some t)
    (hop : decode t = .error (.reservedOperation op)) : step s = .refused (.reservedOperation op) := by
  simp [step, ht, hop]

/-- Settles O1: a step adds nothing around the operation. -/
theorem stepRunsDecodedTransaction : Obligations.StepRunsDecodedTransaction := fun _ _ _ => step_of_decode

/-- Settles O3: the first branch of a step. -/
theorem noTransactionIsRefused : Obligations.NoTransactionIsRefused := fun s h => by simp [step, h]

/-- A step that completes performs the operation its transaction decodes to. -/
theorem step_eq_next_iff (s u : State) :
    step s = .next u ↔ ∃ t i, s.txn = some t ∧ decode t = .ok i ∧ u = s.perform i := by
  constructor
  · intro h
    obtain ⟨t, i, ht, hi, hu⟩ := step_next_cases h
    exact ⟨t, i, ht, hi, eq_perform_of_exec hu⟩
  · rintro ⟨t, i, ht, hi, rfl⟩
    rw [step_of_decode ht hi, exec_eq_perform]

/-- Settles O2: an assigned index decodes and its operation completes; a reserved one is rejected. -/
theorem assignedIndexCompletesReservedIsRefused : Obligations.AssignedIndexCompletesReservedIsRefused := by
  refine fun s t ht => ⟨fun hle => ?_, fun hge => ?_⟩
  · obtain ⟨i, hi⟩ := exists_decode_of_lt (t := t) (Nat.lt_succ_of_le hle)
    exact ⟨s.perform i, (step_eq_next_iff s _).mpr ⟨t, i, ht, hi, rfl⟩⟩
  · exact ⟨decode_of_reserved hge, step_of_reserved ht (decode_of_reserved hge)⟩

theorem ready_iff (s : State) : s.ready = true ↔ ∃ t, s.txn = some t ∧ (opField t).toNat < 10 := by
  cases h : s.txn with
  | none => simp [State.ready, h]
  | some t => simp [State.ready, h, txnWellFormed, assignedOp]

/-- A state that presents an assigned transaction holds one operation that every step performs. -/
theorem exists_perform_of_ready {s : State} (h : s.ready = true) : ∃ i, step s = .next (s.perform i) := by
  obtain ⟨t, ht, hlt⟩ := (ready_iff s).mp h
  obtain ⟨i, hi⟩ := exists_decode_of_lt hlt
  exact ⟨i, (step_eq_next_iff s _).mpr ⟨t, i, ht, hi, rfl⟩⟩

/-- Settles O49: an operation always completes, and only an assigned index decodes to one. -/
theorem stepCompletesExactlyWhenReady : Obligations.StepCompletesExactlyWhenReady := by
  refine fun s => ⟨fun ⟨u, hu⟩ => ?_, fun h => ?_⟩
  · obtain ⟨t, i, ht, hi, -⟩ := step_next_cases hu
    exact (ready_iff s).mpr ⟨t, ht, opField_lt_of_decode hi⟩
  · obtain ⟨i, hi⟩ := exists_perform_of_ready h
    exact ⟨_, hi⟩

/-! ## The transaction alone decides (R10, R18, R44) -/

/-- Settles O41: both steps perform the operation of the one transaction. -/
theorem stepOutcomeDependsOnTransactionAlone : Obligations.StepOutcomeDependsOnTransactionAlone := by
  intro s s' u htxn h
  obtain ⟨t, i, ht, hi, rfl⟩ := (step_eq_next_iff s u).mp h
  exact ⟨s'.perform i, (step_eq_next_iff s' _).mpr ⟨t, i, htxn ▸ ht, hi, rfl⟩, by simp⟩

/-- Settles O6: the two words decode to one operation, whose outcome is its own. -/
theorem ignoredDinBitsDoNotMatter : Obligations.IgnoredDinBitsDoNotMatter := by
  intro t t' n s hop hn hdin
  have hdec : decode t = decode t' := decode_eq_of_operand_eq hop hn hdin
  refine ⟨hdec, fun u hu => ?_⟩
  obtain ⟨v, i, hv, hi, rfl⟩ := (step_eq_next_iff _ _).mp hu
  obtain rfl : t = v := by simpa using hv
  exact ⟨_, (step_eq_next_iff _ _).mpr ⟨t', i, by simp, hdec ▸ hi, rfl⟩, by simp⟩

/-- Settles O40: each operation takes its own outcome, by induction on the sequence. -/
theorem outcomesDependOnOperandsAlone : Obligations.OutcomesDependOnOperandsAlone := by
  refine ⟨outcomeOf, fun is => ?_⟩
  induction is with
  | nil => exact fun _ => rfl
  | cons i is ih => intro s; simp [outcomesOf, exec_eq_perform, ih]

/-! ## Repetition (R23, R97) -/

/-- Settles O42: the transaction is still held, and performing it again changes nothing. -/
theorem repeatedStepChangesNothing : Obligations.RepeatedStepChangesNothing := by
  intro s u h
  obtain ⟨t, i, ht, hi, rfl⟩ := (step_eq_next_iff s u).mp h
  exact (step_eq_next_iff _ _).mpr ⟨t, i, by simp [ht], hi, by simp⟩

/-- A run goes on from the state its first step answers. -/
theorem run_succ_of_step {M : Host.Core} {s s' : M.State} (h : M.step s = .next s') (n : Nat) :
    M.run (n + 1) s = M.run n s' := by
  rw [Host.Core.run, h]

/-- A state that steps to itself is the end of any run from it. -/
theorem run_of_step_self {M : Host.Core} {s : M.State} (h : M.step s = .next s) (n : Nat) : M.run n s = .next s := by
  induction n with
  | zero => rfl
  | succ n ih => rw [run_succ_of_step h, ih]

/-- Settles O50: after the first step the state steps to itself. -/
theorem heldTransactionNeverStops : Obligations.HeldTransactionNeverStops := by
  intro s h
  obtain ⟨i, hi⟩ := exists_perform_of_ready h
  have hself := repeatedStepChangesNothing s _ hi
  exact ⟨s.perform i, fun n => (run_succ_of_step (M := core) hi n).trans (run_of_step_self (M := core) hself n)⟩

/-! ## Frames (R15, R94) -/

/-- Settles O45: a lane's operation drives its own input port. -/
theorem encoderOperationsFrame : Obligations.EncoderOperationsFrame := by
  constructor
  · intro b s t h
    rw [eq_perform_of_exec h]; exact ⟨rfl, rfl, rfl, rfl, rfl, rfl, rfl⟩
  · intro b s t h
    rw [eq_perform_of_exec h]; exact ⟨rfl, rfl, rfl, rfl, rfl, rfl, rfl⟩

/-- What `DEC32` and `DEC64` do to the wires: `dec_w` is driven and an outcome is taken. -/
theorem exec_dec_shape {w : F16} {s t : State} (h : exec (.dec32 w) s = .next t ∨ exec (.dec64 w) s = .next t) :
    ∃ o, t = { s with decW := some w, taken := o } := by
  obtain h | h := h
  · exact ⟨_, eq_perform_of_exec h⟩
  · exact ⟨_, eq_perform_of_exec h⟩

/-- Settles O44: the other units' inputs, and so their outputs, are not touched. -/
theorem decoderOperationsFrame : Obligations.DecoderOperationsFrame := by
  intro w s t h
  obtain ⟨o, rfl⟩ := exec_dec_shape h
  exact ⟨rfl, rfl, rfl, rfl, rfl, rfl, rfl, rfl, rfl, rfl, rfl, rfl, rfl, rfl, rfl, rfl⟩

/-- What the extractor's operations and the constants do to the wires: `fx_w` is driven and an outcome is taken. -/
theorem exec_fx_shape {i : Instr} {s t : State} (hd32 : ∀ w, i ≠ .dec32 w) (hd64 : ∀ w, i ≠ .dec64 w)
    (he32 : ∀ b, i ≠ .enc32 b) (he64 : ∀ b, i ≠ .enc64 b) (h : exec i s = .next t) :
    ∃ w o, t = { s with fxW := some w, taken := o } := by
  rw [eq_perform_of_exec h]
  cases i with
  | dec32 w => exact absurd rfl (hd32 w)
  | dec64 w => exact absurd rfl (hd64 w)
  | enc32 b => exact absurd rfl (he32 b)
  | enc64 b => exact absurd rfl (he64 b)
  | _ => exact ⟨_, _, rfl⟩

/-- Settles O43: the other units' inputs, and so their outputs, are not touched. -/
theorem extractorOperationsFrame : Obligations.ExtractorOperationsFrame := by
  intro i s t hd32 hd64 he32 he64 h
  obtain ⟨w, o, rfl⟩ := exec_fx_shape hd32 hd64 he32 he64 h
  exact ⟨Option.some_ne_none w, rfl, rfl, rfl, rfl, rfl, rfl, rfl, rfl, rfl, rfl⟩

/-- A failing operation is a narrowing, so it leaves the transaction and the other units' inputs alone. -/
theorem failure_frame {i : Instr} {s t : State} (h : exec i s = .next t) (hfail : t.taken = some .conversionFailure) :
    t.txn = s.txn ∧ t.fxW = s.fxW ∧ t.decW = s.decW := by
  obtain ⟨b, rfl⟩ | ⟨b, rfl⟩ := onlyNarrowingFails.2 i s t h hfail
  · obtain ⟨htxn, hfx, hdec, -⟩ := encoderOperationsFrame.1 b s t h
    exact ⟨htxn, hfx, hdec⟩
  · obtain ⟨htxn, hfx, hdec, -⟩ := encoderOperationsFrame.2 b s t h
    exact ⟨htxn, hfx, hdec⟩

/-- Settles O39: the next operation's outcome is its own, and the same one again is a repetition. -/
theorem failureLeavesNextOperationUnaffected : Obligations.FailureLeavesNextOperationUnaffected := by
  intro i j s t h hfail
  obtain ⟨htxn, hfx, hdec⟩ := failure_frame h hfail
  refine ⟨htxn, hfx, hdec, t.perform j, s.perform j, exec_eq_perform j t, exec_eq_perform j s, by simp, fun w hw => ?_⟩
  rw [eq_perform_of_exec hw, eq_perform_of_exec h, State.perform_perform]

/-! ## The outcome taken is on the ports (R15, R43, R87) -/

section
variable {s : State}

theorem mem_portOutcomes_of_fxBits {v : F16} (h : s.fxBits = some v) : .result (doutOf v) ∈ s.portOutcomes := by
  simp [State.portOutcomes, h]

theorem mem_portOutcomes_of_fxSign {v : F16} (h : s.fxSign = some v) : .result (doutOf v) ∈ s.portOutcomes := by
  simp [State.portOutcomes, h]

theorem mem_portOutcomes_of_fxBexp {v : BitVec 7} (h : s.fxBexp = some v) : .result (doutOf v) ∈ s.portOutcomes := by
  simp [State.portOutcomes, h]

theorem mem_portOutcomes_of_fxExp {v : BitVec 8} (h : s.fxExp = some v) : .result (doutOf v) ∈ s.portOutcomes := by
  simp [State.portOutcomes, h]

theorem mem_portOutcomes_of_fxMant {v : F16} (h : s.fxMant = some v) : .result (doutOf v) ∈ s.portOutcomes := by
  simp [State.portOutcomes, h]

theorem mem_portOutcomes_of_decF32 {v : Bin32} (h : s.decF32 = some v) : .result (doutOf v) ∈ s.portOutcomes := by
  simp [State.portOutcomes, h]

theorem mem_portOutcomes_of_decF64 {v : Bin64} (h : s.decF64 = some v) : .result (doutOf v) ∈ s.portOutcomes := by
  simp [State.portOutcomes, h]

theorem mem_portOutcomes_of_encF32 {b : Bin32} (h : s.encF32 = some b) :
    narrowingOutcome (enc32 b) ∈ s.portOutcomes := by
  have hlane : laneOutcome s.enc32Err s.enc32W = some (narrowingOutcome (enc32 b)) := laneOutcome_enc32 h
  simp [State.portOutcomes, hlane]

theorem mem_portOutcomes_of_encF64 {b : Bin64} (h : s.encF64 = some b) :
    narrowingOutcome (enc64 b) ∈ s.portOutcomes := by
  have hlane : laneOutcome s.enc64Err s.enc64W = some (narrowingOutcome (enc64 b)) := laneOutcome_enc64 h
  simp [State.portOutcomes, hlane]

end

/-- An operation's outcome is shown by the port that is its function of the driven operand. -/
theorem outcomeOf_mem_portOutcomes (i : Instr) (s : State) : outcomeOf i ∈ (s.perform i).portOutcomes := by
  cases i with
  | fromBits w => exact mem_portOutcomes_of_fxBits rfl
  | toBits w => exact mem_portOutcomes_of_fxBits rfl
  | signBit w => exact mem_portOutcomes_of_fxSign rfl
  | biasedExponent w => exact mem_portOutcomes_of_fxBexp rfl
  | exponent w => exact mem_portOutcomes_of_fxExp rfl
  | mantissaBits w => exact mem_portOutcomes_of_fxMant rfl
  | dec32 w => exact mem_portOutcomes_of_decF32 rfl
  | dec64 w => exact mem_portOutcomes_of_decF64 rfl
  | enc32 b => exact mem_portOutcomes_of_encF32 rfl
  | enc64 b => exact mem_portOutcomes_of_encF64 rfl
  | constZero | constMax | constMin | constMinPositive | constMaxNegative => exact mem_portOutcomes_of_fxBits rfl

/-- Settles O48: a step takes the outcome of the operation it performs, and no other. -/
theorem outcomeOnPortsKeptByStep : Obligations.OutcomeOnPortsKeptByStep := by
  intro s u _ h o ho
  obtain ⟨t, i, -, -, rfl⟩ := (step_eq_next_iff s u).mp h
  obtain rfl : outcomeOf i = o := by simpa using ho
  exact outcomeOf_mem_portOutcomes i s

/-- Settles O46: reset drives nothing, so every port is undriven. -/
theorem resetDrivesNothing : Obligations.ResetDrivesNothing := ⟨rfl, rfl, rfl, rfl, rfl, rfl, rfl⟩

/-- Settles O47: no outcome is taken at reset. -/
theorem outcomeOnPortsAtReset : Obligations.OutcomeOnPortsAtReset := fun o ho => by
  obtain ⟨-, -, -, -, -, htaken, -⟩ := resetDrivesNothing
  cases htaken.symm.trans ho

/-! ## The output ports (R15, R107) -/

/-- A lane's two ports while its input is driven: the failure bit and the word or its filler (R82). -/
theorem State.enc32_ports_of_encF32 {s : State} {b : Bin32} (h : s.encF32 = some b) :
    s.enc32Err = some (enc32 b == none) ∧ s.enc32W = some ((enc32 b).getD 0x0000#16) := by
  rw [Option.beq_none, State.enc32Err, State.enc32W, h]; exact ⟨rfl, rfl⟩

/-- A lane's two ports while its input is driven: the failure bit and the word or its filler (R82). -/
theorem State.enc64_ports_of_encF64 {s : State} {b : Bin64} (h : s.encF64 = some b) :
    s.enc64Err = some (enc64 b == none) ∧ s.enc64W = some ((enc64 b).getD 0x0000#16) := by
  rw [Option.beq_none, State.enc64Err, State.enc64W, h]; exact ⟨rfl, rfl⟩

/-- Settles O15: the driven outputs are the units' functions of the input, the undriven ones have no value. -/
theorem outputPortsFollowInputPorts : Obligations.OutputPortsFollowInputPorts := by
  refine ⟨fun s w h => ?_, fun s w h => ⟨State.decF32_of_decW h, State.decF64_of_decW h⟩,
    fun s b => State.enc32_ports_of_encF32, fun s b => State.enc64_ports_of_encF64,
    fun s h => ?_, fun s h => ?_, fun s h => ?_, fun s h => ?_⟩
  · refine ⟨State.fxBits_of_fxW h, State.fxSign_of_fxW h, ?_, ?_, State.fxMant_of_fxW h⟩
    · rw [State.fxBexp_of_fxW h, biasedExponent_eq_expField16]; rfl
    · rw [State.fxExp_of_fxW h, exponentWord, exponent_eq_expField16_sub]; rfl
  · simp [State.fxBits, State.fxSign, State.fxBexp, State.fxExp, State.fxMant, h]
  · simp [State.decF32, State.decF64, h]
  · simp [State.enc32Err, State.enc32W, h]
  · simp [State.enc64Err, State.enc64W, h]

end Sys2Proof.Machine
end

section
/-! Proofs of statements about one format or one function: the binary64 pattern as an extension of the binary32 one (R65), the
rows of the encoder's partition table and their counts (R83), the values of F16 words (R32), and the host's bytes (R21). -/

namespace Sys2Proof.Machine

/-! ## The two widened patterns (R65) -/

/-- The number of the extended pattern `{p[31], p[30:23] + 896, p[22:0], 29 zeros}`. -/
theorem extension_toNat (p : Bin32) :
    (p.extractLsb' 31 1 ++ ((p.extractLsb' 23 8).setWidth 11 + 896#11) ++ p.extractLsb' 0 23 ++ 0#29).toNat =
      p.toNat / 2 ^ 31 * 2 ^ 63 + (p.toNat / 2 ^ 23 % 2 ^ 8 + 896) * 2 ^ 52 + p.toNat % 2 ^ 23 * 2 ^ 29 := by
  have hp := p.isLt
  simp only [toNat_append_eq_add, BitVec.toNat_add, BitVec.toNat_setWidth, BitVec.extractLsb'_toNat, BitVec.toNat_ofNat,
    Nat.shiftRight_eq_div_pow]
  omega

theorem dec64_eq_extension {w : F16} (hz : w ≠ 0x0000#16) :
    dec64 w = (dec32 w).extractLsb' 31 1 ++ (((dec32 w).extractLsb' 23 8).setWidth 11 + 896#11) ++
      (dec32 w).extractLsb' 0 23 ++ 0#29 := by
  have hw := w.isLt
  apply BitVec.eq_of_toNat_eq
  rw [extension_toNat, dec64_toNat hz, dec32_toNat hz]; omega

/-- Settles O20: both patterns have the word's fields, the biases 896 apart. -/
theorem dec64ExtendsDec32 : Obligations.Dec64ExtendsDec32 := by
  intro w
  by_cases hz : w = 0x0000#16
  · rw [hz, dec32_zero, dec64_zero, if_pos rfl]
  · rw [if_neg (dec32_ne_zero hz)]; exact dec64_eq_extension hz

/-! ## The partition of the operand space (R83) -/

theorem getLsbD_31_iff (b : Bin32) : b.getLsbD 31 = true ↔ 2 ^ 31 ≤ b.toNat := by
  rw [← sign32, sign32_eq, decide_eq_true_iff]

theorem getLsbD_63_iff (b : Bin64) : b.getLsbD 63 = true ↔ 2 ^ 63 ≤ b.toNat := by
  rw [← sign64, sign64_eq, decide_eq_true_iff]

theorem outOfRange32_iff_magnitude (b : Bin32) :
    outOfRange32 b = true ↔ 0x5F7F8001 ≤ b.toNat % 2 ^ 31 ∧ b.toNat % 2 ^ 31 ≤ 0x7F7FFFFF := by
  rw [outOfRange32_iff, notFinite32_iff]; omega

theorem outOfRange64_iff_magnitude (b : Bin64) :
    outOfRange64 b = true ↔ 0x43EFF00000000001 ≤ b.toNat % 2 ^ 63 ∧ b.toNat % 2 ^ 63 ≤ 0x7FEFFFFFFFFFFFFF := by
  rw [outOfRange64_iff, notFinite64_iff]; omega

theorem notFinite32_iff_magnitude (b : Bin32) : notFinite32 b = true ↔ 0x7F800000 ≤ b.toNat % 2 ^ 31 := by
  rw [notFinite32_iff]; omega

theorem notFinite64_iff_magnitude (b : Bin64) : notFinite64 b = true ↔ 0x7FF0000000000000 ≤ b.toNat % 2 ^ 63 := by
  rw [notFinite64_iff]; omega

/-- Step 3 never gives `ZERO`: a positive operand is at least `MIN_POSITIVE`, a negative one keeps its sign bit. -/
theorem compose32_incremented32_ne_zero {b : Bin32} (h : inRange32 b = true) :
    compose32 (incremented32 b) ≠ 0x0000#16 := by
  rw [ne_eq, ← BitVec.toNat_inj, compose32_incremented32_toNat h, BitVec.toNat_ofNat]
  rw [inRange32_iff] at h
  split at h <;> omega

/-- Step 3 never gives `ZERO`: a positive operand is at least `MIN_POSITIVE`, a negative one keeps its sign bit. -/
theorem compose64_incremented64_ne_zero {b : Bin64} (h : inRange64 b = true) :
    compose64 (incremented64 b) ≠ 0x0000#16 := by
  rw [ne_eq, ← BitVec.toNat_inj, compose64_incremented64_toNat h, BitVec.toNat_ofNat]
  rw [inRange64_iff] at h
  split at h <;> omega

/-- Settles O33: each test is the row's range of magnitudes, and each row has one outcome. -/
theorem operandClassesHaveTheirMagnitudes : Obligations.OperandClassesHaveTheirMagnitudes := by
  constructor
  · intro b
    refine ⟨?_, ?_, outOfRange32_iff_magnitude b, notFinite32_iff_magnitude b, enc32_of_deadZone,
      fun h => ⟨_, enc32_of_inRange h, compose32_incremented32_ne_zero h⟩, enc32_of_outOfRange, enc32_of_notFinite⟩
    · rw [deadZone32_iff]; simp only [getLsbD_31_iff]; split <;> omega
    · rw [inRange32_iff]; simp only [getLsbD_31_iff]
  · intro b
    refine ⟨?_, ?_, outOfRange64_iff_magnitude b, notFinite64_iff_magnitude b, enc64_of_deadZone,
      fun h => ⟨_, enc64_of_inRange h, compose64_incremented64_ne_zero h⟩, enc64_of_outOfRange, enc64_of_notFinite⟩
    · rw [deadZone64_iff]; simp only [getLsbD_63_iff]; split <;> omega
    · rw [inRange64_iff]; simp only [getLsbD_63_iff]

/-! ## The counts of the partition (R83) -/

/-- The words with numbers from `lo` up to, but not including, `hi` are `hi - lo` in number. -/
theorem card_of_toNat_mem_Ico {n lo hi : Nat} {P : BitVec n → Prop} (hhi : hi ≤ 2 ^ n)
    (h : ∀ b, P b ↔ lo ≤ b.toNat ∧ b.toNat < hi) : Nat.card { b : BitVec n // P b } = hi - lo := by
  have hcard : Nat.card (Finset.Ico lo hi) = hi - lo := by
    rw [Nat.card_eq_fintype_card, Fintype.card_coe, Nat.card_Ico]
  rw [← hcard]
  refine Nat.card_eq_of_bijective
    (fun b : { b : BitVec n // P b } => (⟨b.1.toNat, Finset.mem_Ico.mpr ((h b.1).mp b.2)⟩ : Finset.Ico lo hi)) ⟨?_, ?_⟩
  · intro a b hab
    exact Subtype.ext (BitVec.eq_of_toNat_eq (congrArg Subtype.val hab))
  · rintro ⟨k, hk⟩
    have hmem := Finset.mem_Ico.mp hk
    have hkn : (BitVec.ofNat n k).toNat = k := by
      rw [BitVec.toNat_ofNat, Nat.mod_eq_of_lt (hmem.2.trans_le hhi)]
    exact ⟨⟨BitVec.ofNat n k, (h _).mpr (hkn.symm ▸ hmem)⟩, Subtype.ext hkn⟩

theorem eq_of_bool_toNat_eq : ∀ a b : Bool, a.toNat = b.toNat → a = b := by decide

/-- A class that is, for one sign, a range of magnitudes has as many patterns of that sign as the range has numbers. -/
theorem card_of_sign_and_magnitude {c : Bin32 → Bool} {sg : Bool} {lo hi : Nat} (hhi : hi ≤ 2 ^ 31)
    (h : ∀ b, sign32 b = sg → (c b = true ↔ lo ≤ b.toNat % 2 ^ 31 ∧ b.toNat % 2 ^ 31 < hi)) :
    Nat.card { b : Bin32 // sign32 b = sg ∧ c b = true } = hi - lo := by
  rw [← Nat.add_sub_add_left (sg.toNat * 2 ^ 31)]
  have hsg := sg.toNat_le
  refine card_of_toNat_mem_Ico (by omega) fun b => ?_
  have hb := b.isLt
  have hs := toNat_sign32 b
  constructor
  · rintro ⟨hsign, hc⟩
    have hm := (h b hsign).mp hc
    rw [hsign] at hs; omega
  · intro hm
    have hsign : sign32 b = sg := eq_of_bool_toNat_eq _ _ (by omega)
    exact ⟨hsign, (h b hsign).mpr (by omega)⟩

/-- Settles O34: each row is a range of magnitudes, its bounds those of R83. -/
theorem operandClassesHaveTheirCounts : Obligations.OperandClassesHaveTheirCounts := by
  refine ⟨?_, ?_, ?_, ?_, fun sg => ?_, fun sg => ?_, fun sg => ?_⟩
  · refine card_of_sign_and_magnitude (lo := 0) (hi := 0x1F808000) (by decide) fun b hs => ?_
    rw [deadZone32_iff_lt_bound, hs, and_iff_right (Nat.zero_le _)]; rfl
  · refine card_of_sign_and_magnitude (lo := 0) (hi := 0x1F800000) (by decide) fun b hs => ?_
    rw [deadZone32_iff_lt_bound, hs, and_iff_right (Nat.zero_le _)]; rfl
  · refine card_of_sign_and_magnitude (lo := 0x1F808000) (hi := 0x5F7F8001) (by decide) fun b hs => ?_
    rw [sign32_eq, decide_eq_false_iff_not] at hs
    rw [inRange32_iff, if_neg hs]; omega
  · refine card_of_sign_and_magnitude (lo := 0x1F800000) (hi := 0x5F7F8001) (by decide) fun b hs => ?_
    rw [sign32_eq, decide_eq_true_iff] at hs
    rw [inRange32_iff, if_pos hs]; omega
  · refine card_of_sign_and_magnitude (lo := 0x5F7F8001) (hi := 0x7F800000) (by decide) fun b _ => ?_
    rw [outOfRange32_iff_magnitude]; omega
  · refine card_of_sign_and_magnitude (lo := 0x7F800000) (hi := 0x80000000) (by decide) fun b _ => ?_
    rw [notFinite32_iff_magnitude]; omega
  · have hall := card_of_sign_and_magnitude (c := fun _ => true) (sg := sg) (lo := 0) (hi := 2 ^ 31) le_rfl
      fun b _ => iff_of_true rfl ⟨Nat.zero_le _, Nat.mod_lt _ (by decide)⟩
    simpa using hall

/-! ## Values of F16 words (R32) -/

/-- Words of one sign are ordered by value, and the signs are apart, so different words have different values. -/
theorem val16_injective : Function.Injective val16 := by
  intro v w h
  have hlt : ¬ val16 v < val16 w := h.not_lt
  have hgt : ¬ val16 w < val16 v := h.not_gt
  apply BitVec.eq_of_toNat_eq
  cases hv : sign16 v <;> cases hw : sign16 w
  case false.false =>
    rw [val16_lt_iff_of_sign_false hv hw] at hlt
    rw [val16_lt_iff_of_sign_false hw hv] at hgt
    omega
  case true.true =>
    rw [val16_lt_iff_of_sign_true hv hw] at hlt
    rw [val16_lt_iff_of_sign_true hw hv] at hgt
    omega
  case true.false => exact absurd (val16_lt_of_sign_true_of_sign_false hv hw) hlt
  case false.true => exact absurd (val16_lt_of_sign_true_of_sign_false hw hv) hgt

theorem val16_eq_zero_iff (w : F16) : val16 w = 0 ↔ w = 0x0000#16 := by
  rw [← val16_zero, val16_injective.eq_iff]

theorem val16_minPositive_eq : val16 0x0001#16 = (2 : ℚ) ^ (-64 : ℤ) * 257 / 256 :=
  val16_f16MinPositive.trans (by norm_num)

/-- `+2^-64` is positive and below `MIN_POSITIVE` (R32). -/
theorem val16_ne_two_zpow_neg_64 (w : F16) : val16 w ≠ (2 : ℚ) ^ (-64 : ℤ) := by
  intro h
  have hmin : val16 0x0001#16 ≤ val16 w := f16MinPositive_le_of_pos (by rw [h]; positivity)
  rw [val16_minPositive_eq, h] at hmin
  norm_num at hmin

/-- Settles O52: values follow the order of words, and the two words next to zero bound the rest. -/
theorem f16ValuesAreDistinct : Obligations.F16ValuesAreDistinct :=
  ⟨fun _ _ h => val16_injective h, val16_eq_zero_iff, val16_ne_two_zpow_neg_64, fun _ => f16MinPositive_le_of_pos,
    fun _ => le_f16MaxNegative_of_neg, val16_minPositive_eq, val16_f16MaxNegative⟩

/-! ## The host's bytes (R21) -/

/-- The number of a word's bytes is the word's, which has no bits above them. -/
theorem ofNat_leValue_leBytes (n : Nat) (v : BitVec (8 * n)) : BitVec.ofNat (8 * n) (leValue (leBytes n v.toNat)) = v := by
  have hpow : 256 ^ n = 2 ^ (8 * n) := by rw [pow_mul]; norm_num
  rw [leValue_leBytes, hpow, Nat.mod_eq_of_lt v.isLt, BitVec.ofNat_toNat, BitVec.setWidth_eq]

theorem hostLoad_hostStore (o : ByteOrder) (n : Nat) (v : BitVec (8 * n)) : hostLoad o n (hostStore o n v) = v := by
  cases o with
  | littleEndian => exact ofNat_leValue_leBytes n v
  | bigEndian => rw [hostStore, hostLoad, List.reverse_reverse, ofNat_leValue_leBytes]

theorem length_hostStore (o : ByteOrder) (n : Nat) (v : BitVec (8 * n)) : (hostStore o n v).length = n := by
  cases o <;> simp [hostStore]

/-- Settles O58: either order stores the same bytes, read in the order they were stored. -/
theorem hostByteOrderDoesNotMatter : Obligations.HostByteOrderDoesNotMatter :=
  ⟨fun o n v => ⟨length_hostStore o n v, hostLoad_hostStore o n v⟩, fun w => hostLoad_hostStore _ 2 w⟩

end Sys2Proof.Machine
end

section
/-! Proofs of the statements about rounding (42_encoder.md R79). An operand in range stands a fraction of the way from one F16
magnitude to the next; both lanes round that fraction, so what step 3 computes is shown once for both. -/

namespace Sys2Proof.Machine

/-! ## Numbers between two F16 magnitudes -/

/-- The distance from the F16 magnitude `K` to the next: `2^(e - 72)` in the binade of its exponent field `e`. -/
def spacing (K : Nat) : ℚ := (2 : ℚ) ^ (((K / 2 ^ 8 : ℕ) : ℤ) - 72)

/-- The number a fraction `ρ` of the way from the F16 magnitude `K` to the next. -/
def between (K : Nat) (ρ : ℚ) : ℚ := (2 ^ 8 + (K % 2 ^ 8 : ℕ) + ρ) * spacing K

theorem spacing_pos (K : Nat) : 0 < spacing K := by unfold spacing; positivity

theorem between_eq_add (K : Nat) (ρ : ℚ) : between K ρ = normalMagnitude 8 64 K + ρ * spacing K := by
  have hexp : ((K / 2 ^ 8 : ℕ) : ℤ) - 64 - (8 : ℕ) = ((K / 2 ^ 8 : ℕ) : ℤ) - 72 := by push_cast; ring
  rw [between, normalMagnitude, hexp, ← spacing]; ring

/-- The spacing reaches the next magnitude, also where that starts a binade. -/
theorem normalMagnitude_succ (K : Nat) : normalMagnitude 8 64 (K + 1) = normalMagnitude 8 64 K + spacing K := by
  have h0 := between_eq_add K 0
  have h1 := between_eq_add (K + 1) 0
  rw [zero_mul, add_zero] at h0 h1
  rw [← h0, ← h1, between, between, spacing, spacing]
  by_cases hd : K % 2 ^ 8 = 255
  · have hdiv : (K + 1) / 2 ^ 8 = K / 2 ^ 8 + 1 := by omega
    have hmod : (K + 1) % 2 ^ 8 = 0 := by omega
    have hexp : ((K / 2 ^ 8 + 1 : ℕ) : ℤ) - 72 = ((K / 2 ^ 8 : ℕ) : ℤ) - 72 + 1 := by push_cast; ring
    rw [hdiv, hmod, hd, hexp, zpow_add_one₀ (by norm_num)]; push_cast; ring
  · have hdiv : (K + 1) / 2 ^ 8 = K / 2 ^ 8 := by omega
    have hmod : (K + 1) % 2 ^ 8 = K % 2 ^ 8 + 1 := by omega
    rw [hdiv, hmod]; push_cast; ring

/-- A wide magnitude is a number between two F16 magnitudes: the field bits below the cut are the fraction. -/
theorem normalMagnitude_eq_between {cut d M : Nat} (hM : d * 2 ^ 8 ≤ M / 2 ^ cut) :
    normalMagnitude (8 + cut) (64 + d) M =
      between (M / 2 ^ cut - d * 2 ^ 8) (((M % 2 ^ cut : ℕ) : ℚ) / 2 ^ cut) := by
  obtain ⟨K, hK⟩ : ∃ K, M / 2 ^ cut = K + d * 2 ^ 8 := ⟨M / 2 ^ cut - d * 2 ^ 8, by omega⟩
  have hdiv : M / 2 ^ (8 + cut) = K / 2 ^ 8 + d := by
    rw [add_comm 8, pow_add, ← Nat.div_div_eq_div_mul, hK, Nat.add_mul_div_right _ _ (by positivity)]
  have hmod : M % 2 ^ (8 + cut) = M % 2 ^ cut + 2 ^ cut * (K % 2 ^ 8) := by
    rw [add_comm 8, pow_add, Nat.mod_mul, hK, Nat.add_mul_mod_self_right]
  have hexp : ((K / 2 ^ 8 + d : ℕ) : ℤ) - (64 + d) - ((8 + cut : ℕ) : ℤ) = ((K / 2 ^ 8 : ℕ) : ℤ) - 72 - (cut : ℤ) := by
    push_cast; ring
  rw [normalMagnitude, hdiv, hmod, hexp, hK, Nat.add_sub_cancel, between, spacing, zpow_sub₀ (by norm_num) _ (cut : ℤ),
    zpow_natCast, pow_add]
  push_cast; field_simp; ring

/-! ## Rounding in both lanes (R74, R75, R79) -/

/-- The F16 magnitude nearest to `between K ρ`; halfway it is the larger one (R79). -/
def nearestMagnitude (K : Nat) (ρ : ℚ) : Nat := if ρ < 1 / 2 then K else K + 1

/-- The operand `x` has sign `s` and stands `ρ` of the way from the F16 magnitude `K` to the next, and `w` is the word of the
nearest magnitude with that sign: what step 3 does in either lane. -/
structure RoundsTo (x : ℚ) (w : F16) (s : Bool) (K : Nat) (ρ : ℚ) : Prop where
  value : x = signFactor s * between K ρ
  fraction_nonneg : 0 ≤ ρ
  fraction_lt_one : ρ < 1
  word : w.toNat = s.toNat * 2 ^ 15 + nearestMagnitude K ρ
  nearest_lt : nearestMagnitude K ρ < 2 ^ 15
  magnitude_pos : s = false → 0 < K

theorem nearestMagnitude_of_lt (K : Nat) {ρ : ℚ} (h : ρ < 1 / 2) : nearestMagnitude K ρ = K := if_pos h

theorem nearestMagnitude_of_ge (K : Nat) {ρ : ℚ} (h : 1 / 2 ≤ ρ) : nearestMagnitude K ρ = K + 1 := if_neg h.not_gt

theorem le_nearestMagnitude (K : Nat) (ρ : ℚ) : K ≤ nearestMagnitude K ρ := by
  unfold nearestMagnitude; split <;> omega

theorem nearestMagnitude_le_succ (K : Nat) (ρ : ℚ) : nearestMagnitude K ρ ≤ K + 1 := by
  unfold nearestMagnitude; split <;> omega

/-- Adding half a unit and dividing rounds the remainder. -/
theorem add_half_div {H : Nat} (hH : 0 < H) (M : Nat) :
    (M + H) / (2 * H) = if M % (2 * H) < H then M / (2 * H) else M / (2 * H) + 1 := by
  have hr := Nat.mod_lt M (show 0 < 2 * H by omega)
  have hsplit : M + H = 2 * H * (M / (2 * H)) + (M % (2 * H) + H) := by rw [← add_assoc, Nat.div_add_mod]
  rw [hsplit, Nat.mul_add_div (by omega)]
  generalize M % (2 * H) = r at hr ⊢
  split
  next hlt => rw [Nat.div_eq_of_lt (show r + H < 2 * H by omega), add_zero]
  next hge => rw [Nat.div_eq_of_lt_le (k := 1) (show 1 * (2 * H) ≤ r + H by omega) (by omega)]

/-- Step 3 on magnitude fields: one bit added just below the cut, then truncated and re-biased, is the nearest magnitude. -/
theorem add_half_div_sub_eq_nearestMagnitude {c D M : Nat} (hD : D ≤ M / 2 ^ (c + 1)) :
    (M + 2 ^ c) / 2 ^ (c + 1) - D =
      nearestMagnitude (M / 2 ^ (c + 1) - D) (((M % 2 ^ (c + 1) : ℕ) : ℚ) / 2 ^ (c + 1)) := by
  have hhalf : ((M % 2 ^ (c + 1) : ℕ) : ℚ) / 2 ^ (c + 1) < 1 / 2 ↔ M % 2 ^ (c + 1) < 2 ^ c := by
    rw [div_lt_iff₀ (by positivity), show (1 / 2 : ℚ) * 2 ^ (c + 1) = ((2 ^ c : ℕ) : ℚ) by push_cast; ring, Nat.cast_lt]
  have hround := add_half_div (H := 2 ^ c) (by positivity) M
  rw [← Nat.pow_succ', Nat.succ_eq_add_one] at hround
  rw [hround, nearestMagnitude]
  simp only [hhalf]
  split <;> omega

/-- What a lane with `c + 1` bits below its cut and its bias `d` above F16's does to a magnitude field. -/
theorem roundsTo_of_magnitude {x : ℚ} {w : F16} {s : Bool} {c d M : Nat}
    (hx : x = signFactor s * normalMagnitude (8 + (c + 1)) (64 + d) M) (hlo : d * 2 ^ 8 ≤ M / 2 ^ (c + 1))
    (hpos : s = false → d * 2 ^ 8 < M / 2 ^ (c + 1)) (hhi : (M + 2 ^ c) / 2 ^ (c + 1) - d * 2 ^ 8 < 2 ^ 15)
    (hw : w.toNat = s.toNat * 2 ^ 15 + ((M + 2 ^ c) / 2 ^ (c + 1) - d * 2 ^ 8)) :
    RoundsTo x w s (M / 2 ^ (c + 1) - d * 2 ^ 8) (((M % 2 ^ (c + 1) : ℕ) : ℚ) / 2 ^ (c + 1)) where
  value := by rw [hx, normalMagnitude_eq_between hlo]
  fraction_nonneg := by positivity
  fraction_lt_one := by
    rw [div_lt_one (by positivity)]
    exact_mod_cast Nat.mod_lt M (show 0 < 2 ^ (c + 1) by positivity)
  word := by rw [hw, add_half_div_sub_eq_nearestMagnitude hlo]
  nearest_lt := by rwa [← add_half_div_sub_eq_nearestMagnitude hlo]
  magnitude_pos := fun hs => by have := hpos hs; omega

theorem exists_roundsTo_of_inRange32 {b : Bin32} {x : ℚ} (hr : inRange32 b = true) (hx : val32 b = some x) :
    ∃ w s K ρ, enc32 b = some w ∧ RoundsTo x w s K ρ := by
  obtain ⟨hlo, hhi⟩ := magnitude32_bounds_of_inRange hr
  refine ⟨_, sign32 b, _, _, enc32_of_inRange hr,
    roundsTo_of_magnitude (c := 14) (d := 63) (M := b.toNat % 2 ^ 31) ?_ (by omega) (fun hs => ?_) (by omega) ?_⟩
  · rw [val32_eq_signed_wideMagnitude hx, wideMagnitude_of_ge _ _ (by omega)]; rfl
  · rw [sign32_eq, decide_eq_false_iff_not] at hs
    rw [inRange32_iff, if_neg hs] at hr
    omega
  · rw [compose32_incremented32_toNat hr, toNat_sign32]

theorem exists_roundsTo_of_inRange64 {b : Bin64} {x : ℚ} (hr : inRange64 b = true) (hx : val64 b = some x) :
    ∃ w s K ρ, enc64 b = some w ∧ RoundsTo x w s K ρ := by
  obtain ⟨hlo, hhi⟩ := magnitude64_bounds_of_inRange hr
  refine ⟨_, sign64 b, _, _, enc64_of_inRange hr,
    roundsTo_of_magnitude (c := 43) (d := 959) (M := b.toNat % 2 ^ 63) ?_ (by omega) (fun hs => ?_) (by omega) ?_⟩
  · rw [val64_eq_signed_wideMagnitude hx, wideMagnitude_of_ge _ _ (by omega)]; rfl
  · rw [sign64_eq, decide_eq_false_iff_not] at hs
    rw [inRange64_iff, if_neg hs] at hr
    omega
  · rw [compose64_incremented64_toNat hr, toNat_sign64]

/-- Either lane rounds an operand in range. -/
theorem exists_roundsTo_of_inRange {x : ℚ} {o : Option F16}
    (h : (∃ b : Bin32, inRange32 b = true ∧ val32 b = some x ∧ enc32 b = o) ∨
      (∃ b : Bin64, inRange64 b = true ∧ val64 b = some x ∧ enc64 b = o)) :
    ∃ w s K ρ, o = some w ∧ RoundsTo x w s K ρ := by
  obtain ⟨b, hr, hx, rfl⟩ | ⟨b, hr, hx, rfl⟩ := h
  · exact exists_roundsTo_of_inRange32 hr hx
  · exact exists_roundsTo_of_inRange64 hr hx

/-! ## The fields of the rounded word (R79) -/

theorem between_pos (K : Nat) {ρ : ℚ} (hρ : 0 ≤ ρ) : 0 < between K ρ := by
  have := spacing_pos K
  unfold between; positivity

/-- A number between two magnitudes as a power of two and a fraction of it. -/
theorem between_eq_binade (K : Nat) (ρ : ℚ) :
    between K ρ = (2 : ℚ) ^ (((K / 2 ^ 8 : ℕ) : ℤ) - 64) * (1 + ((K % 2 ^ 8 : ℕ) + ρ) / 256) := by
  have hexp : ((K / 2 ^ 8 : ℕ) : ℤ) - 64 = ((K / 2 ^ 8 : ℕ) : ℤ) - 72 + (8 : ℕ) := by push_cast; ring
  rw [between, spacing, hexp, zpow_add₀ (by norm_num), zpow_natCast]; ring

theorem zpow_le_and_lt_of_binade {k : ℤ} {f : ℚ} (hf : 0 ≤ f) (hf1 : f < 1) :
    (2 : ℚ) ^ k ≤ 2 ^ k * (1 + f) ∧ (2 : ℚ) ^ k * (1 + f) < 2 ^ (k + 1) := by
  have hpos : (0 : ℚ) < 2 ^ k := by positivity
  rw [zpow_add_one₀ (by norm_num)]
  constructor <;> nlinarith

theorem fraction_of_binade {m : Nat} {ρ : ℚ} (hm : m < 2 ^ 8) (hρ : 0 ≤ ρ) (hρ1 : ρ < 1) :
    0 ≤ ((m : ℚ) + ρ) / 256 ∧ ((m : ℚ) + ρ) / 256 < 1 := by
  have hm' : (m : ℚ) ≤ 255 := by exact_mod_cast Nat.le_of_lt_succ hm
  exact ⟨by positivity, by linarith⟩

/-- A positive number is in one binade. -/
theorem binade_unique {j k : ℤ} {f g : ℚ} (hf : 0 ≤ f) (hf1 : f < 1) (hg : 0 ≤ g) (hg1 : g < 1)
    (h : (2 : ℚ) ^ k * (1 + f) = 2 ^ j * (1 + g)) : k = j ∧ f = g := by
  obtain ⟨hklo, hkhi⟩ := zpow_le_and_lt_of_binade (k := k) hf hf1
  obtain ⟨hjlo, hjhi⟩ := zpow_le_and_lt_of_binade (k := j) hg hg1
  have hkj : k < j + 1 := (zpow_lt_zpow_iff_right₀ (by norm_num)).mp (hklo.trans_lt (h ▸ hjhi))
  have hjk : j < k + 1 := (zpow_lt_zpow_iff_right₀ (by norm_num)).mp (hjlo.trans_lt (h ▸ hkhi))
  obtain rfl : k = j := by omega
  have hcancel := mul_left_cancel₀ (show (2 : ℚ) ^ k ≠ 0 by positivity) h
  exact ⟨rfl, by linarith⟩

/-- `floor(m + ρ + 1/2)` is what the nearest magnitude has above the start of its binade. -/
theorem floor_add_half_eq (K : Nat) {ρ : ℚ} (hρ : 0 ≤ ρ) (hρ1 : ρ < 1) :
    ⌊((K % 2 ^ 8 : ℕ) : ℚ) + ρ + 1 / 2⌋ = (nearestMagnitude K ρ : ℤ) - ((K / 2 ^ 8 * 2 ^ 8 : ℕ) : ℤ) := by
  obtain hlt | hge := lt_or_ge ρ (1 / 2)
  · have hm : (nearestMagnitude K ρ : ℤ) - ((K / 2 ^ 8 * 2 ^ 8 : ℕ) : ℤ) = ((K % 2 ^ 8 : ℕ) : ℤ) := by
      rw [nearestMagnitude_of_lt K hlt]; omega
    rw [hm, Int.floor_eq_iff, Int.cast_natCast]; constructor <;> linarith
  · have hm : (nearestMagnitude K ρ : ℤ) - ((K / 2 ^ 8 * 2 ^ 8 : ℕ) : ℤ) = ((K % 2 ^ 8 + 1 : ℕ) : ℤ) := by
      rw [nearestMagnitude_of_ge K hge]; omega
    rw [hm, Int.floor_eq_iff, Int.cast_natCast, Nat.cast_add_one]; constructor <;> linarith

namespace RoundsTo

variable {x : ℚ} {w : F16} {s : Bool} {K : Nat} {ρ : ℚ}

theorem abs_eq (h : RoundsTo x w s K ρ) : |x| = between K ρ := by
  rw [h.value, abs_mul, abs_signFactor, one_mul, abs_of_pos (between_pos K h.fraction_nonneg)]

/-- The word has the operand's sign. -/
theorem sign_eq (h : RoundsTo x w s K ρ) : sign16 w = decide (x < 0) := by
  have hpos := between_pos K h.fraction_nonneg
  have hword := h.word
  have hlt := h.nearest_lt
  rw [sign16_eq, decide_eq_decide, h.value]
  cases s with
  | false =>
    rw [Bool.toNat_false] at hword
    rw [signFactor_false, one_mul]
    exact iff_of_false (by omega) hpos.not_gt
  | true =>
    rw [Bool.toNat_true] at hword
    rw [signFactor_true, neg_one_mul]
    exact iff_of_true (by omega) (neg_neg_of_pos hpos)

/-- The exponent and the fraction of the operand's binade are those of its place between magnitudes. -/
theorem binade_eq (h : RoundsTo x w s K ρ) {k : ℤ} {f : ℚ} (hx : |x| = (2 : ℚ) ^ k * (1 + f)) (hf : 0 ≤ f) (hf1 : f < 1) :
    k = ((K / 2 ^ 8 : ℕ) : ℤ) - 64 ∧ 256 * f = ((K % 2 ^ 8 : ℕ) : ℚ) + ρ := by
  obtain ⟨hg, hg1⟩ := fraction_of_binade (Nat.mod_lt K (by decide)) h.fraction_nonneg h.fraction_lt_one
  obtain ⟨hk, hfrac⟩ := binade_unique hf hf1 hg hg1 (hx.symm.trans (h.abs_eq.trans (between_eq_binade K ρ)))
  exact ⟨hk, by rw [hfrac]; ring⟩

end RoundsTo

/-- Settles O27: `q` is the nearest magnitude's offset in its binade, and the word's fields are its quotient and remainder. -/
theorem roundedWordFollowsMantissaFormula : Obligations.RoundedWordFollowsMantissaFormula := by
  intro x f k hx hf hf1 o ho
  obtain ⟨w, s, K, ρ, rfl, h⟩ := exists_roundsTo_of_inRange ho
  obtain ⟨hk, hfrac⟩ := h.binade_eq hx hf hf1
  have hq := floor_add_half_eq K h.fraction_nonneg h.fraction_lt_one
  have hword := h.word
  have hlt := h.nearest_lt
  have hlo := le_nearestMagnitude K ρ
  have hhi := nearestMagnitude_le_succ K ρ
  have hs := s.toNat_le
  rw [hfrac]
  refine ⟨w, rfl, by omega, by omega, h.sign_eq, by omega, by omega, fun hle => ⟨?_, ?_⟩, fun heq => ⟨by omega, ?_, ?_⟩⟩
  · rw [expField16_toNat]; omega
  · rw [manField16_toNat]; omega
  · rw [expField16_toNat]; omega
  · apply BitVec.eq_of_toNat_eq
    rw [manField16_toNat, BitVec.toNat_ofNat]; omega

/-! ## Nearest, ties away from zero (R79) -/

theorem normalMagnitude_lt_iff (mw : Nat) (bias : Int) (J K : Nat) :
    normalMagnitude mw bias J < normalMagnitude mw bias K ↔ J < K := (normalMagnitude_strictMono mw bias).lt_iff_lt

/-- The nearest magnitude is at most half a spacing away. -/
theorem abs_nearest_sub_between (K : Nat) {ρ : ℚ} (hρ : 0 ≤ ρ) (hρ1 : ρ < 1) :
    |normalMagnitude 8 64 (nearestMagnitude K ρ) - between K ρ| = min ρ (1 - ρ) * spacing K := by
  have hs := spacing_pos K
  rw [between_eq_add]
  obtain hlt | hge := lt_or_ge ρ (1 / 2)
  · rw [nearestMagnitude_of_lt K hlt, min_eq_left (by linarith), sub_add_cancel_left, abs_neg, abs_of_nonneg (by positivity)]
  · have hsub : normalMagnitude 8 64 (K + 1) - (normalMagnitude 8 64 K + ρ * spacing K) = (1 - ρ) * spacing K := by
      rw [normalMagnitude_succ]; ring
    rw [nearestMagnitude_of_ge K hge, min_eq_right (by linarith), hsub, abs_of_nonneg (mul_nonneg (by linarith) hs.le)]

/-- `p` is at least as near to `y` as `z` is, and where they are equally near `z` is the smaller in magnitude. -/
def NearerOrLarger (y p z : ℚ) : Prop := |p - y| ≤ |z - y| ∧ (|z - y| = |p - y| → |z| < |p|)

theorem nearerOrLarger_of_lt {y p z : ℚ} (h : |p - y| < |z - y|) : NearerOrLarger y p z :=
  ⟨h.le, fun heq => absurd heq h.ne'⟩

/-- Of two magnitudes the operand lies between, and of those beyond, the nearest wins, and halfway the larger. -/
theorem nearest_nearerOrLarger_magnitude (K : Nat) {ρ : ℚ} (hρ : 0 ≤ ρ) (hρ1 : ρ < 1) {J : Nat}
    (hJ : J ≠ nearestMagnitude K ρ) :
    NearerOrLarger (between K ρ) (normalMagnitude 8 64 (nearestMagnitude K ρ)) (normalMagnitude 8 64 J) := by
  have hs := spacing_pos K
  have hnear := abs_nearest_sub_between K hρ hρ1
  have hbelow : J ≤ K → ρ * spacing K + (normalMagnitude 8 64 K - normalMagnitude 8 64 J) =
      |normalMagnitude 8 64 J - between K ρ| := fun hle => by
    have hmono := (normalMagnitude_strictMono 8 64).monotone hle
    rw [between_eq_add, abs_of_nonpos (by nlinarith)]; ring
  have habove : K + 1 ≤ J → (1 - ρ) * spacing K + (normalMagnitude 8 64 J - normalMagnitude 8 64 (K + 1)) =
      |normalMagnitude 8 64 J - between K ρ| := fun hle => by
    have hmono := (normalMagnitude_strictMono 8 64).monotone hle
    rw [normalMagnitude_succ] at hmono ⊢
    rw [between_eq_add, abs_of_nonneg (by nlinarith)]; ring
  obtain hlt | hge := lt_or_ge ρ (1 / 2)
  · rw [min_eq_left (by linarith)] at hnear
    rw [nearestMagnitude_of_lt K hlt] at hnear hJ ⊢
    apply nearerOrLarger_of_lt
    obtain hle | hgt := le_or_gt J K
    · have hVJ := (normalMagnitude_lt_iff 8 64 J K).mpr (lt_of_le_of_ne hle hJ)
      rw [hnear, ← hbelow hle]; linarith
    · have hVJ := (normalMagnitude_strictMono 8 64).monotone (Nat.succ_le_of_lt hgt)
      rw [hnear, ← habove hgt]; nlinarith
  · rw [min_eq_right (by linarith)] at hnear
    rw [nearestMagnitude_of_ge K hge] at hnear hJ ⊢
    obtain hle | hgt := le_or_gt J K
    · have hVJ := (normalMagnitude_strictMono 8 64).monotone hle
      refine ⟨?_, fun _ => ?_⟩
      · rw [hnear, ← hbelow hle]; nlinarith
      · rw [abs_of_pos (normalMagnitude_pos ..), abs_of_pos (normalMagnitude_pos ..), normalMagnitude_lt_iff]; omega
    · have hVJ := (normalMagnitude_lt_iff 8 64 (K + 1) J).mpr (by omega)
      apply nearerOrLarger_of_lt
      rw [hnear, ← habove hgt]; linarith

/-- Every positive operand is nearer to its nearest magnitude than to zero. -/
theorem abs_nearest_sub_between_lt (K : Nat) {ρ : ℚ} (hρ : 0 ≤ ρ) (hρ1 : ρ < 1) :
    |normalMagnitude 8 64 (nearestMagnitude K ρ) - between K ρ| < between K ρ := by
  have hs := spacing_pos K
  have hm : (0 : ℚ) ≤ (K % 2 ^ 8 : ℕ) := Nat.cast_nonneg _
  calc |normalMagnitude 8 64 (nearestMagnitude K ρ) - between K ρ|
      _ = min ρ (1 - ρ) * spacing K := abs_nearest_sub_between K hρ hρ1
      _ < (2 ^ 8 + (K % 2 ^ 8 : ℕ) + ρ) * spacing K := by
        gcongr
        exact (min_le_left _ _).trans_lt (by linarith)
      _ = between K ρ := rfl

/-- A number on the other side of zero, or zero, is farther from a positive operand than zero is. -/
theorem nearerOrLarger_of_nonpos {y p z : ℚ} (hy : |p - y| < y) (hz : z ≤ 0) : NearerOrLarger y p z := by
  have hy0 : 0 < y := (abs_nonneg _).trans_lt hy
  refine nearerOrLarger_of_lt (hy.trans_le ?_)
  rw [abs_of_nonpos (by linarith)]; linarith

theorem abs_signFactor_mul_sub (s : Bool) (p q : ℚ) : |signFactor s * p - signFactor s * q| = |p - q| := by
  rw [← mul_sub, abs_mul, abs_signFactor, one_mul]

/-- Nearness does not depend on the sign. -/
theorem NearerOrLarger.signFactor_mul {y p z : ℚ} (s : Bool) (h : NearerOrLarger y p z) :
    NearerOrLarger (signFactor s * y) (signFactor s * p) (signFactor s * z) := by
  simpa only [NearerOrLarger, abs_signFactor_mul_sub, abs_mul, abs_signFactor, one_mul] using h

theorem signFactor_mul_self_mul (s : Bool) (q : ℚ) : signFactor s * (signFactor s * q) = q := by cases s <;> simp

/-- Seen with sign `s`, an F16 value is on the other side of zero, or is a magnitude. -/
theorem signFactor_mul_val16_cases (s : Bool) (v : F16) :
    signFactor s * val16 v ≤ 0 ∨ ∃ J, signFactor s * val16 v = normalMagnitude 8 64 J := by
  by_cases hz : v = 0x0000#16
  · exact .inl (by rw [hz, val16_zero, mul_zero])
  rw [val16_eq_signed_normalMagnitude hz]
  have hpos := normalMagnitude_pos 8 64 (v.toNat % 2 ^ 15)
  cases s <;> cases sign16 v <;> simp only [signFactor_false, signFactor_true, one_mul, neg_one_mul, neg_neg]
  case false.false | true.true => exact .inr ⟨_, rfl⟩
  case false.true | true.false => exact .inl (by linarith)

namespace RoundsTo

variable {x : ℚ} {w : F16} {s : Bool} {K : Nat} {ρ : ℚ}

theorem val16_eq (h : RoundsTo x w s K ρ) : val16 w = signFactor s * normalMagnitude 8 64 (nearestMagnitude K ρ) :=
  val16_of_toNat_eq h.nearest_lt (fun hs => (h.magnitude_pos hs).trans_le (le_nearestMagnitude K ρ)) h.word

/-- The rounded word is nearer to the operand than any other, or as near and larger. -/
theorem nearerOrLarger (h : RoundsTo x w s K ρ) {v : F16} (hv : v ≠ w) : NearerOrLarger x (val16 w) (val16 v) := by
  rw [h.value, h.val16_eq, ← signFactor_mul_self_mul s (val16 v)]
  apply NearerOrLarger.signFactor_mul
  obtain hz | ⟨J, hJ⟩ := signFactor_mul_val16_cases s v
  · exact nearerOrLarger_of_nonpos (abs_nearest_sub_between_lt K h.fraction_nonneg h.fraction_lt_one) hz
  · rw [hJ]
    refine nearest_nearerOrLarger_magnitude K h.fraction_nonneg h.fraction_lt_one fun hnear => hv (val16_injective ?_)
    rw [h.val16_eq, ← hnear, ← hJ, signFactor_mul_self_mul]

/-- The error is at most half a spacing, which is `2^(k-9)` in the binade of `2^k`. -/
theorem abs_sub_le (h : RoundsTo x w s K ρ) {k : ℤ} (hk : |x| < (2 : ℚ) ^ (k + 1)) :
    |val16 w - x| ≤ (2 : ℚ) ^ (k - 9) := by
  obtain ⟨hg, hg1⟩ := fraction_of_binade (Nat.mod_lt K (by decide)) h.fraction_nonneg h.fraction_lt_one
  obtain ⟨hlo, -⟩ := zpow_le_and_lt_of_binade (k := ((K / 2 ^ 8 : ℕ) : ℤ) - 64) hg hg1
  rw [← between_eq_binade, ← h.abs_eq] at hlo
  have hbinade : ((K / 2 ^ 8 : ℕ) : ℤ) - 64 < k + 1 := (zpow_lt_zpow_iff_right₀ (by norm_num)).mp (hlo.trans_lt hk)
  have hmin : min ρ (1 - ρ) ≤ 1 / 2 := by rw [min_le_iff]; by_contra! hcon; linarith
  calc |val16 w - x|
      _ = |normalMagnitude 8 64 (nearestMagnitude K ρ) - between K ρ| := by
        rw [h.val16_eq, h.value, abs_signFactor_mul_sub]
      _ = min ρ (1 - ρ) * spacing K := abs_nearest_sub_between K h.fraction_nonneg h.fraction_lt_one
      _ ≤ 1 / 2 * spacing K := mul_le_mul_of_nonneg_right hmin (spacing_pos K).le
      _ = (2 : ℚ) ^ (((K / 2 ^ 8 : ℕ) : ℤ) - 72 - 1) := by rw [spacing, zpow_sub_one₀ (by norm_num)]; ring
      _ ≤ (2 : ℚ) ^ (k - 9) := zpow_le_zpow_right₀ (by norm_num) (by omega)

end RoundsTo

/-- Settles O28: both lanes give the word of the nearest magnitude, halfway the larger. -/
theorem narrowingRoundsToNearestTiesAway : Obligations.NarrowingRoundsToNearestTiesAway := by
  intro x o ho
  obtain ⟨w, s, K, ρ, rfl, h⟩ := exists_roundsTo_of_inRange ho
  refine ⟨w, rfl, fun v => ?_, fun v hv => (h.nearerOrLarger hv).2, fun k _ hk => h.abs_sub_le hk⟩
  by_cases hv : v = w
  · rw [hv]
  · exact (h.nearerOrLarger hv).1

/-! ## Where the order of the steps overrides rounding (R79, second part) -/

theorem sign_eq_decide_neg {s : Bool} {p : ℚ} (hp : 0 ≤ p) (hne : signFactor s * p ≠ 0) :
    s = decide (signFactor s * p < 0) := by
  cases s with
  | false => rw [signFactor_false, one_mul, decide_eq_false hp.not_gt]
  | true =>
    rw [signFactor_true, neg_one_mul] at hne ⊢
    exact (decide_eq_true (lt_of_le_of_ne (neg_nonpos.mpr hp) hne)).symm

/-- The sign bit of a nonzero number, and its magnitude field. -/
theorem sign32_eq_decide_neg {b : Bin32} {x : ℚ} (h : val32 b = some x) (hx : x ≠ 0) : sign32 b = decide (x < 0) := by
  rw [val32_eq_signed_wideMagnitude h] at hx ⊢
  exact sign_eq_decide_neg (wideMagnitude_nonneg ..) hx

theorem sign64_eq_decide_neg {b : Bin64} {x : ℚ} (h : val64 b = some x) (hx : x ≠ 0) : sign64 b = decide (x < 0) := by
  rw [val64_eq_signed_wideMagnitude h] at hx ⊢
  exact sign_eq_decide_neg (wideMagnitude_nonneg ..) hx

theorem abs_eq_wideMagnitude32 {b : Bin32} {x : ℚ} (h : val32 b = some x) :
    |x| = wideMagnitude 23 127 (b.toNat % 2 ^ 31) := by
  rw [val32_eq_signed_wideMagnitude h, abs_signed_wideMagnitude]

theorem abs_eq_wideMagnitude64 {b : Bin64} {x : ℚ} (h : val64 b = some x) :
    |x| = wideMagnitude 52 1023 (b.toNat % 2 ^ 63) := by
  rw [val64_eq_signed_wideMagnitude h, abs_signed_wideMagnitude]

/-- Step 3 applied from half a spacing below `MAX_NEGATIVE` to half a spacing above `MAX`, so also where it is not
reached. -/
theorem compose32_incremented32_toNat_of_band {b : Bin32} (hlo : 0x1F7FC000 ≤ b.toNat % 2 ^ 31)
    (hhi : b.toNat % 2 ^ 31 < 0x5F7FC000) :
    (compose32 (incremented32 b)).toNat =
      (sign32 b).toNat * 2 ^ 15 + ((b.toNat % 2 ^ 31 + 2 ^ 14) / 2 ^ 15 - 63 * 2 ^ 8) := by
  have hb := b.isLt
  rw [compose32_toNat, incremented32_toNat, toNat_sign32]; omega

theorem compose64_incremented64_toNat_of_band {b : Bin64} (hlo : 0x3BEFF80000000000 ≤ b.toNat % 2 ^ 63)
    (hhi : b.toNat % 2 ^ 63 < 0x43EFF80000000000) :
    (compose64 (incremented64 b)).toNat =
      (sign64 b).toNat * 2 ^ 15 + ((b.toNat % 2 ^ 63 + 2 ^ 43) / 2 ^ 44 - 959 * 2 ^ 8) := by
  have hb := b.isLt
  rw [compose64_toNat, incremented64_toNat, toNat_sign64]; omega

/-- The magnitudes that bound the overriding bands. -/
theorem wideMagnitude32_bands :
    wideMagnitude 23 127 0x1F7FC000 = (2 : ℚ) ^ (-64 : ℤ) * 1023 / 1024 ∧
    wideMagnitude 23 127 0x1F800000 = (2 : ℚ) ^ (-64 : ℤ) ∧
    wideMagnitude 23 127 0x5F7F8000 = 511 * 2 ^ 55 ∧
    wideMagnitude 23 127 0x5F7FC000 = 2 ^ 63 * 1023 / 512 := by
  refine ⟨?_, ?_, ?_, ?_⟩ <;> rw [wideMagnitude_of_ge _ _ (by norm_num), normalMagnitude] <;> norm_num

theorem wideMagnitude64_bands :
    wideMagnitude 52 1023 0x3BEFF80000000000 = (2 : ℚ) ^ (-64 : ℤ) * 1023 / 1024 ∧
    wideMagnitude 52 1023 0x3BF0000000000000 = (2 : ℚ) ^ (-64 : ℤ) ∧
    wideMagnitude 52 1023 0x43EFF00000000000 = 511 * 2 ^ 55 ∧
    wideMagnitude 52 1023 0x43EFF80000000000 = 2 ^ 63 * 1023 / 512 := by
  refine ⟨?_, ?_, ?_, ?_⟩ <;> rw [wideMagnitude_of_ge _ _ (by norm_num), normalMagnitude] <;> norm_num

/-- The first band is inside the dead zone, and nearer to `MIN_POSITIVE` than to zero. -/
theorem positive_band {x : ℚ} (hlo : (2 : ℚ) ^ (-64 : ℤ) * 257 / 512 < x) (hhi : x < (2 : ℚ) ^ (-64 : ℤ) * 257 / 256) :
    (val16 f16MaxNegative < x ∧ x < val16 f16MinPositive) ∧ |val16 0x0001#16 - x| < |val16 0x0000#16 - x| := by
  have hpos : (0 : ℚ) < 2 ^ (-64 : ℤ) := by positivity
  have hmin : val16 f16MinPositive = (2 : ℚ) ^ (-64 : ℤ) * 257 / 256 := val16_minPositive_eq
  refine ⟨⟨?_, ?_⟩, ?_⟩
  · rw [val16_f16MaxNegative]; linarith
  · rw [hmin]; exact hhi
  · rw [val16_minPositive_eq, val16_zero, abs_of_pos (by linarith), abs_of_neg (by linarith)]; linarith

/-- The second band is inside the dead zone. -/
theorem negative_band {x : ℚ} (hlo : (2 : ℚ) ^ (-64 : ℤ) * 1023 / 1024 ≤ -x) (hhi : -x < (2 : ℚ) ^ (-64 : ℤ)) :
    x < 0 ∧ val16 f16MaxNegative < x ∧ x < val16 f16MinPositive := by
  have hpos : (0 : ℚ) < 2 ^ (-64 : ℤ) := by positivity
  have hneg : x < 0 := by linarith
  have hmin : 0 < val16 f16MinPositive := val16_pos_of_sign_false (by decide) (by decide)
  exact ⟨hneg, by rw [val16_f16MaxNegative]; linarith, hneg.trans hmin⟩

theorem compose32_incremented32_of_negative_band {b : Bin32} {x : ℚ} (h : val32 b = some x) (hneg : x < 0)
    (hlo : (2 : ℚ) ^ (-64 : ℤ) * 1023 / 1024 ≤ -x) (hhi : -x < (2 : ℚ) ^ (-64 : ℤ)) :
    compose32 (incremented32 b) = 0x8000#16 := by
  obtain ⟨hLo, hHi, -, -⟩ := wideMagnitude32_bands
  rw [← abs_of_neg hneg, abs_eq_wideMagnitude32 h] at hlo hhi
  rw [← hLo, (wideMagnitude_strictMono 23 127).le_iff_le] at hlo
  rw [← hHi, wideMagnitude_lt_iff] at hhi
  apply BitVec.eq_of_toNat_eq
  rw [compose32_incremented32_toNat_of_band hlo (by omega), sign32_eq_decide_neg h hneg.ne, decide_eq_true hneg,
    Bool.toNat_true, BitVec.toNat_ofNat]
  omega

theorem compose64_incremented64_of_negative_band {b : Bin64} {x : ℚ} (h : val64 b = some x) (hneg : x < 0)
    (hlo : (2 : ℚ) ^ (-64 : ℤ) * 1023 / 1024 ≤ -x) (hhi : -x < (2 : ℚ) ^ (-64 : ℤ)) :
    compose64 (incremented64 b) = 0x8000#16 := by
  obtain ⟨hLo, hHi, -, -⟩ := wideMagnitude64_bands
  rw [← abs_of_neg hneg, abs_eq_wideMagnitude64 h] at hlo hhi
  rw [← hLo, (wideMagnitude_strictMono 52 1023).le_iff_le] at hlo
  rw [← hHi, wideMagnitude_lt_iff] at hhi
  apply BitVec.eq_of_toNat_eq
  rw [compose64_incremented64_toNat_of_band hlo (by omega), sign64_eq_decide_neg h hneg.ne, decide_eq_true hneg,
    Bool.toNat_true, BitVec.toNat_ofNat]
  omega

/-- A word of the largest magnitude is `MAX` or `MIN` by its sign. -/
theorem eq_max_or_min_of_toNat {w : F16} {p : Prop} [Decidable p] (h : w.toNat = (decide p).toNat * 2 ^ 15 + 0x7FFF) :
    w = if p then 0xFFFF#16 else 0x7FFF#16 := by
  apply BitVec.eq_of_toNat_eq
  by_cases hp : p
  · rw [h, if_pos hp, decide_eq_true hp]; rfl
  · rw [h, if_neg hp, decide_eq_false hp]; rfl

theorem compose32_incremented32_of_top_band {b : Bin32} {x : ℚ} (h : val32 b = some x) (hlo : 511 * 2 ^ 55 < |x|)
    (hhi : |x| < 2 ^ 63 * 1023 / 512) :
    compose32 (incremented32 b) = if x < 0 then 0xFFFF#16 else 0x7FFF#16 := by
  obtain ⟨-, -, hLo, hHi⟩ := wideMagnitude32_bands
  have hne : x ≠ 0 := by rintro rfl; norm_num at hlo
  rw [abs_eq_wideMagnitude32 h] at hlo hhi
  rw [← hLo, wideMagnitude_lt_iff] at hlo
  rw [← hHi, wideMagnitude_lt_iff] at hhi
  apply eq_max_or_min_of_toNat
  rw [compose32_incremented32_toNat_of_band (by omega) hhi, sign32_eq_decide_neg h hne]
  omega

theorem compose64_incremented64_of_top_band {b : Bin64} {x : ℚ} (h : val64 b = some x) (hlo : 511 * 2 ^ 55 < |x|)
    (hhi : |x| < 2 ^ 63 * 1023 / 512) :
    compose64 (incremented64 b) = if x < 0 then 0xFFFF#16 else 0x7FFF#16 := by
  obtain ⟨-, -, hLo, hHi⟩ := wideMagnitude64_bands
  have hne : x ≠ 0 := by rintro rfl; norm_num at hlo
  rw [abs_eq_wideMagnitude64 h] at hlo hhi
  rw [← hLo, wideMagnitude_lt_iff] at hlo
  rw [← hHi, wideMagnitude_lt_iff] at hhi
  apply eq_max_or_min_of_toNat
  rw [compose64_incremented64_toNat_of_band (by omega) hhi, sign64_eq_decide_neg h hne]
  omega

/-- Settles O29: two bands are in the dead zone, the third is out of range, and step 3 does not see them. -/
theorem stepOrderOverridesRounding : Obligations.StepOrderOverridesRounding := by
  have hmax : val16 0x7FFF#16 = 511 * 2 ^ 55 := val16_f16Max
  rw [Obligations.StepOrderOverridesRounding, hmax]
  refine ⟨fun b x h => ⟨fun hlo hhi => ?_, fun hlo hhi => ?_, fun hlo hhi => ?_, fun hr => ?_⟩,
    fun b x h => ⟨fun hlo hhi => ?_, fun hlo hhi => ?_, fun hlo hhi => ?_, fun hr => ?_⟩⟩
  · obtain ⟨hzone, hnear⟩ := positive_band hlo hhi
    exact ⟨enc32_of_deadZone ((deadZone32_iff_value h).mpr hzone), hnear⟩
  · obtain ⟨hneg, hzone⟩ := negative_band hlo hhi
    exact ⟨enc32_of_deadZone ((deadZone32_iff_value h).mpr hzone),
      compose32_incremented32_of_negative_band h hneg hlo hhi⟩
  · exact ⟨enc32_of_abs_gt h hlo, compose32_incremented32_of_top_band h hlo hhi⟩
  · rw [enc32_of_inRange hr, ne_eq, Option.some_inj]; exact compose32_incremented32_ne_zero hr
  · obtain ⟨hzone, hnear⟩ := positive_band hlo hhi
    exact ⟨enc64_of_deadZone ((deadZone64_iff_value h).mpr hzone), hnear⟩
  · obtain ⟨hneg, hzone⟩ := negative_band hlo hhi
    exact ⟨enc64_of_deadZone ((deadZone64_iff_value h).mpr hzone),
      compose64_incremented64_of_negative_band h hneg hlo hhi⟩
  · exact ⟨enc64_of_abs_gt h hlo, compose64_incremented64_of_top_band h hlo hhi⟩
  · rw [enc64_of_inRange hr, ne_eq, Option.some_inj]; exact compose64_incremented64_ne_zero hr

end Sys2Proof.Machine
end
